-- ==== Sys2Proof/Word.lean ====
section
/-! DEFINITION. Word types of the geohash-int Morton core and the slices of spec/00_scope.md rule R8. -/

namespace Sys2Proof

/-- A command word CMD (00_scope.md R6, CMD_W). -/
abbrev Word32 := BitVec 32

/-- A code, an operand or a result register (00_scope.md R6, CODE_W and OPND_W). -/
abbrev Word64 := BitVec 64

/-- An axis index (00_scope.md R6, AXIS_W). -/
abbrev AxisWord := BitVec 32

end Sys2Proof
end

