-- ==== Sys2Proof/Machine/Binary64.lean ====
section
/-! DEFINITION. Binary64 words as exact values (spec/00_scope.md R10, R11): `f64val` reads a word, `f64word`
writes the word of an exactly representable rational, `f64nearest` is the rounding that only the assembler's
literals use (spec/30_encoding.md R61). No operation of the block rounds (spec/41_scaler.md R80). -/

namespace Sys2Proof.Machine

/-- What a 64-bit word denotes read as binary64 (00_scope.md R11). -/
inductive F64 where
  /-- a NaN, quiet or signalling -/
  | nan
  /-- an infinity, with its sign bit -/
  | inf (negative : Bool)
  /-- a finite value, both zeros as 0 -/
  | finite (v : ℚ)
deriving DecidableEq, Repr

/-- The sign bit s = w[63] (00_scope.md R11). -/
def f64sign (w : Word64) : Bool := w.getLsbD 63

/-- The exponent field e = w[62:52] (00_scope.md R11). -/
def f64exponent (w : Word64) : Nat := (w.extractLsb' 52 11).toNat

/-- The fraction f = w[51:0] (00_scope.md R11). -/
def f64fraction (w : Word64) : Nat := (w.extractLsb' 0 52).toNat

/-- `(-1)^s × n / 2^k`. -/
def signedDyadic (s : Bool) (n k : Nat) : ℚ := mkRat (if s then -(n : Int) else (n : Int)) (2 ^ k)

/-- `f64val(w)` (00_scope.md R11). A normal value `(-1)^s × (2^52 + f) × 2^(e - 1075)` is written as the
integer `(2^52 + f) × 2^e` over `2^1075`. -/
def f64val (w : Word64) : F64 :=
  let s := f64sign w
  let e := f64exponent w
  let f := f64fraction w
  if e = 0x7FF then (if f = 0 then .inf s else .nan)
  else if e = 0 then .finite (signedDyadic s f 1074)
  else .finite (signedDyadic s ((2 ^ 52 + f) * 2 ^ e) 1075)

/-- The greatest k with `2^k ≤ |x|`, for a nonzero x. -/
def log2Floor (x : ℚ) : Int :=
  let n := x.num.natAbs
  let k : Int := (Nat.log2 n : Int) - (Nat.log2 x.den : Int)
  if x.den * 2 ^ k.toNat ≤ n * 2 ^ (-k).toNat then k else k - 1

/-- The exponent k of the unit `2^(k - 52)` in which a nonzero magnitude is written: at least -1022, where the
subnormals begin. -/
def unitExponent (x : ℚ) : Int := max (log2Floor x) (-1022)

/-- `|x|` in units of `2^(k - 52)`, as a numerator and a denominator. -/
def inUnits (x : ℚ) (k : Int) : Nat × Nat :=
  (x.num.natAbs * 2 ^ (52 - k).toNat, x.den * 2 ^ (k - 52).toNat)

/-- The word of sign `neg` and magnitude `m × 2^(k - 52)`: for m below `2^52` (only when k = -1022) a zero or a
subnormal, for m from `2^52` a normal value, and for m = `2^53` the next power of two, since the exponent field
stands above the fraction. -/
def f64assemble (neg : Bool) (k : Int) (m : Nat) : Word64 :=
  BitVec.ofNat 64 ((if neg then 2 ^ 63 else 0) + (k + 1022).toNat * 2 ^ 52 + m)

/-- `f64word(x)`: the word whose value is exactly x, with +0.0 for 0. Used only where x is exactly
representable (00_scope.md R10), and there the division leaves no remainder. -/
def f64word (x : ℚ) : Word64 :=
  if x = 0 then 0
  else
    let k := unitExponent x
    let (n, d) := inUnits x k
    f64assemble (decide (x < 0)) k (n / d)

/-- The integer nearest to n / d, ties to even. -/
def nearestEven (n d : Nat) : Nat :=
  let q := n / d
  let twice := 2 * (n % d)
  if twice < d then q
  else if d < twice then q + 1
  else if q % 2 = 0 then q
  else q + 1

/-- The binary64 word nearest to x, ties to even, sign `neg` (30_encoding.md R61). A magnitude that rounds past
the largest finite value gives the infinity (PRESUMED: IEEE 754 default, log entry 9). -/
def f64nearest (neg : Bool) (x : ℚ) : Word64 :=
  if x = 0 then f64assemble neg (-1022) 0
  else
    let k := unitExponent x
    let (n, d) := inUnits x k
    if 1023 < k ∨ (k = 1023 ∧ 2 ^ 53 ≤ nearestEven n d) then f64assemble neg 1024 (2 ^ 52)
    else f64assemble neg k (nearestEven n d)

end Sys2Proof.Machine
end

