-- ==== Sys2Proof/Machine/Morton.lean ====
section
/-! DEFINITION. The Morton bit maps of spec/40_interleave.md: the normative maps `spread` and `squash`, the
shift-and-mask networks that realise them, the interleave of two indices, and the fixed masks of
spec/00_scope.md R12. -/

namespace Sys2Proof.Machine

/-! ## Masks (00_scope.md R12) -/

/-- LAT_BITS, the even positions. -/
def latBits : Word64 := 0x5555555555555555

/-- LNG_BITS, the odd positions. -/
def lngBits : Word64 := 0xAAAAAAAAAAAAAAAA

/-- ACTIVE(p), the low 2p bits. -/
def active (p : Nat) : Word64 := BitVec.ofNat 64 (2 ^ (2 * p) - 1)

/-- LAT_ACT(p). -/
def latAct (p : Nat) : Word64 := latBits &&& active p

/-- LNG_ACT(p). -/
def lngAct (p : Nat) : Word64 := lngBits &&& active p

/-! ## The bit maps -/

/-- `spread(x)[2i] = x[i]` and `spread(x)[2i + 1] = 0` (40_interleave.md R64). -/
def spread (x : AxisWord) : Word64 :=
  BitVec.ofFnLE fun k : Fin 64 => decide (k.val % 2 = 0) && x.getLsbD (k.val / 2)

/-- `squash(c)[i] = c[2i]`; the odd positions have no effect (40_interleave.md R66). -/
def squash (c : Word64) : AxisWord := BitVec.ofFnLE fun i : Fin 32 => c.getLsbD (2 * i.val)

/-- The latitude index of a code (00_scope.md R12). -/
def latIdx (c : Word64) : AxisWord := squash c

/-- The longitude index of a code (00_scope.md R12). -/
def lngIdx (c : Word64) : AxisWord := squash (c >>> 1)

/-- `(spread(lng) << 1) | spread(lat)`: longitude at the odd positions (40_interleave.md R70). -/
def interleave (lat lng : AxisWord) : Word64 := (spread lng <<< 1) ||| spread lat

/-! ## The networks -/

/-- The five rounds of 40_interleave.md R65, shifts 16, 8, 4, 2, 1. -/
def spreadNetwork (x : AxisWord) : Word64 :=
  let t : Word64 := x.setWidth 64
  let t := (t ||| (t <<< 16)) &&& 0x0000FFFF0000FFFF
  let t := (t ||| (t <<< 8)) &&& 0x00FF00FF00FF00FF
  let t := (t ||| (t <<< 4)) &&& 0x0F0F0F0F0F0F0F0F
  let t := (t ||| (t <<< 2)) &&& 0x3333333333333333
  (t ||| (t <<< 1)) &&& 0x5555555555555555

/-- The initial mask and the five rounds of 40_interleave.md R67, shifts 1, 2, 4, 8, 16. -/
def squashNetwork (c : Word64) : AxisWord :=
  let t := c &&& 0x5555555555555555
  let t := (t ||| (t >>> 1)) &&& 0x3333333333333333
  let t := (t ||| (t >>> 2)) &&& 0x0F0F0F0F0F0F0F0F
  let t := (t ||| (t >>> 4)) &&& 0x00FF00FF00FF00FF
  let t := (t ||| (t >>> 8)) &&& 0x0000FFFF0000FFFF
  let t := (t ||| (t >>> 16)) &&& 0x00000000FFFFFFFF
  t.setWidth 32

end Sys2Proof.Machine
end

