-- ==== Sys2Proof/Config.lean ====
section
/-! DEFINITION. What the implementation fixes: the parameters of spec/00_scope.md R6, the one open parameter
LATENCY of R7, and the values the spec leaves unspecified (spec/10_state.md R30). -/

namespace Sys2Proof.Config

/-- PREC_MIN (00_scope.md R6). -/
def precMin : Nat := 1

/-- PREC_MAX (00_scope.md R6). -/
def precMax : Nat := 32

/-- LAT_MIN (00_scope.md R6). -/
def latMin : ℚ := -90

/-- LAT_RANGE (00_scope.md R6). -/
def latRange : ℚ := 180

/-- LNG_MIN (00_scope.md R6). -/
def lngMin : ℚ := -180

/-- LNG_RANGE (00_scope.md R6). -/
def lngRange : ℚ := 360

/-- How far LATENCY lies above 1. No body: the spec leaves LATENCY open (00_scope.md R7,
92_eei_decisions.md D21), so nothing can be proved of one value of it. Safe; log entry 4. -/
opaque latencyAboveOne : Nat

/-- LATENCY, "a natural number of at least 1" (00_scope.md R7). -/
def latency : Nat := latencyAboveOne + 1

/-- What CAP_CMD holds after the n-th reset edge: unspecified (10_state.md R30), so a free value.
Safe; log entry 2. -/
opaque freeCapCmd : Nat → Word32

/-- What CAP_A holds after the n-th reset edge: unspecified (10_state.md R30), so a free value.
Safe; log entry 2. -/
opaque freeCapA : Nat → Word64

/-- What CAP_B holds after the n-th reset edge: unspecified (10_state.md R30), so a free value.
Safe; log entry 2. -/
opaque freeCapB : Nat → Word64

end Sys2Proof.Config
end

