-- ==== Sys2Proof/Machine/State.lean ====
section
/-! DEFINITION. The architectural state of the block (spec/10_state.md), its ports (R26) and the state after
reset (R30). Plain data throughout. -/

namespace Sys2Proof.Machine

/-- The outcomes a completed command can have (10_state.md R21). STATUS value 0, NONE, is written by reset
only; 6 and 7 are reserved and never written. -/
inductive Status where
  | ok
  | invalidPrecision
  | invalidCoordinate
  | invalidCode
  | illegalCommand
deriving DecidableEq, Repr

/-- What one rising edge of clk samples at the input ports (10_state.md R26). -/
structure PortIn where
  /-- rst, synchronous and active high (70_reset_and_hazards.md R116) -/
  rst : Bool
  /-- cmd_valid: the host offers a command -/
  cmdValid : Bool
  /-- cmd, the command word -/
  cmd : Word32
  /-- opa, operand A -/
  opa : Word64
  /-- opb, operand B -/
  opb : Word64
deriving DecidableEq, Repr

/-- Ports on which the host offers nothing and asserts no reset. -/
def PortIn.idle : PortIn := { rst := false, cmdValid := false, cmd := 0, opa := 0, opb := 0 }

/-- What the host reads at the output ports (10_state.md R26). -/
structure PortOut where
  cmdReady : Bool
  rspValid : Bool
  rspStatus : BitVec 3
  rspPrec : BitVec 6
  rspR : Vector Word64 8
deriving DecidableEq, Repr

/-- One response: what one command writes in one update (10_state.md R24). -/
structure Response where
  status : BitVec 3
  precOut : BitVec 6
  r : Vector Word64 8
deriving DecidableEq, Repr

/-- The state of the block between two rising edges of clk (10_state.md R31 with the cycle-level registers
that R31 adds). -/
structure State where
  /-- STATUS (10_state.md R21) -/
  status : BitVec 3
  /-- PREC_OUT (10_state.md R22) -/
  precOut : BitVec 6
  /-- R0 to R7 (10_state.md R23) -/
  r : Vector Word64 8
  /-- RSP_VALID (10_state.md R25) -/
  rspValid : Bool
  /-- BUSY (10_state.md R25) -/
  busy : Bool
  /-- CNT (10_state.md R27, 70_reset_and_hazards.md R124) -/
  cnt : Nat
  /-- CAP_CMD (10_state.md R27) -/
  capCmd : Word32
  /-- CAP_A (10_state.md R27) -/
  capA : Word64
  /-- CAP_B (10_state.md R27) -/
  capB : Word64
  /-- The model's own: what the input ports carry at the coming rising edges, the next edge first; past its end
  they are idle. DESIGN CHOICE, log entry 3. -/
  inputs : List PortIn
  /-- The model's own: how many reset edges have drawn free values for CAP_CMD, CAP_A and CAP_B.
  DESIGN CHOICE, log entry 2. -/
  freeCount : Nat
deriving DecidableEq, Repr

/-- Why the machine stops. It never does: "Every accepted command completes" and every error is a STATUS value
(60_exceptions.md R115, R103), so there is no constructor. -/
inductive Fault
deriving DecidableEq, Repr

/-- Why an instruction has no meaning. -/
inductive Refusal where
  /-- An instruction of the table that has no meaning yet, by its mnemonic. Safe: nothing is claimed of it.
  No arm of `exec` raises it: every command has its meaning. -/
  | notModelled (mnemonic : String)
deriving DecidableEq, Repr

/-- The state after reset (10_state.md R30). CAP_CMD, CAP_A and CAP_B have no reset value in the spec: zero
here, DESIGN CHOICE, unsafe, log entry 1. No command is on the ports and no free value has been drawn: log
entries 3 and 2. -/
def State.reset : State where
  status := 0
  precOut := 0
  r := #v[0, 0, 0, 0, 0, 0, 0, 0]
  rspValid := false
  busy := false
  cnt := 0
  capCmd := 0
  capA := 0
  capB := 0
  inputs := []
  freeCount := 0

end Sys2Proof.Machine
end

