-- ==== Sys2Proof/Machine/Operands.lean ====
section
/-! DEFINITION. How a command reads its operands A and B (spec/30_encoding.md R50, R55). The rules read the
captured words CAP_A and CAP_B (spec/10_state.md R27). Nothing is sign-extended or scaled. -/

namespace Sys2Proof.Machine

/-- A 32-bit index operand A[31:0]; A[63:32] is ignored, not checked (30_encoding.md R55). -/
def State.indexA (s : State) : AxisWord := s.capA.extractLsb' 0 32

/-- A 32-bit index operand B[31:0]; B[63:32] is ignored, not checked (30_encoding.md R55). -/
def State.indexB (s : State) : AxisWord := s.capB.extractLsb' 0 32

/-- A code operand: the whole of A (30_encoding.md R55). -/
def State.codeA (s : State) : Word64 := s.capA

/-- A coordinate operand in A, read by `f64val` (30_encoding.md R55). -/
def State.coordA (s : State) : F64 := f64val s.capA

/-- A coordinate operand in B, read by `f64val` (30_encoding.md R55). -/
def State.coordB (s : State) : F64 := f64val s.capB

/-- `zext_64(v)` of an axis index (00_scope.md R9). -/
def zext64 (v : AxisWord) : Word64 := v.setWidth 64

end Sys2Proof.Machine
end

