-- ==== Sys2Proof/Machine/Ops.lean ====
section
/-! DEFINITION. The named operations on the registers: writing a whole response (`complete`), the error
completion that stands in this block where a processor has exception entry (`raise`), the output ports, and
what each kind of rising edge does (spec/10_state.md R24 to R27, spec/70_reset_and_hazards.md R116 to R125).
The block has no return from an error (60_exceptions.md R107) and no memory (10_state.md R33). -/

namespace Sys2Proof.Machine

/-! ## Responses -/

/-- The STATUS value of each outcome (10_state.md R21). -/
def Status.code : Status → BitVec 3
  | .ok => 1
  | .invalidPrecision => 2
  | .invalidCoordinate => 3
  | .invalidCode => 4
  | .illegalCommand => 5

/-- R0 to R7 with the listed results first and 0 in every register not listed (10_state.md R23). -/
def resultRegs (rs : List Word64) : Vector Word64 8 :=
  #v[rs.getD 0 0, rs.getD 1 0, rs.getD 2 0, rs.getD 3 0, rs.getD 4 0, rs.getD 5 0, rs.getD 6 0, rs.getD 7 0]

/-- `complete(s, n, r0, …)` of 00_scope.md R10: the whole response of a command. -/
def complete (st : Status) (n : Nat) (rs : List Word64) : Response :=
  { status := st.code, precOut := BitVec.ofNat 6 n, r := resultRegs rs }

/-- `raise E` of 00_scope.md R10 and 60_exceptions.md R103: status E, PREC_OUT and R0 to R7 zero. Nothing is
saved, no mode changes and control goes nowhere (60_exceptions.md R106). -/
def raise (e : Status) : Response := complete e 0 []

/-- The response registers as one value. -/
def State.response (s : State) : Response := { status := s.status, precOut := s.precOut, r := s.r }

/-- The single update of STATUS, PREC_OUT and R0 to R7 (10_state.md R24). -/
def State.writeResponse (s : State) (ρ : Response) : State :=
  { s with status := ρ.status, precOut := ρ.precOut, r := ρ.r }

/-- A command ends by writing its response (00_scope.md R18: exactly one, and always). -/
def answer (ρ : Response) (s : State) : Host.Outcome State Fault Refusal := .next (s.writeResponse ρ)

/-! ## Output ports -/

/-- The output ports show the registers; `cmd_ready` is `~BUSY` (10_state.md R25, R26). -/
def State.outputs (s : State) : PortOut :=
  { cmdReady := !s.busy, rspValid := s.rspValid, rspStatus := s.status, rspPrec := s.precOut, rspR := s.r }

/-! ## Input ports -/

/-- What the next rising edge samples at the input ports. -/
def State.sample (s : State) : PortIn := s.inputs.headD PortIn.idle

/-- The state with the sampled inputs spent. -/
def State.advance (s : State) : State := { s with inputs := s.inputs.tail }

/-! ## What a rising edge does to the registers -/

/-- A reset edge (70_reset_and_hazards.md R116): every register takes its reset value and no command is
accepted. CAP_CMD, CAP_A and CAP_B are unspecified, so they take free values (log entry 2). -/
def State.resetEdge (s : State) : State :=
  { s with
    status := 0
    precOut := 0
    r := resultRegs []
    rspValid := false
    busy := false
    cnt := 0
    capCmd := Config.freeCapCmd s.freeCount
    capA := Config.freeCapA s.freeCount
    capB := Config.freeCapB s.freeCount
    freeCount := s.freeCount + 1 }

/-- A command is accepted at an edge where `rst = 0`, `cmd_valid = 1` and `cmd_ready = 1` (10_state.md
R26). -/
def accepts (x : PortIn) (s : State) : Bool := !x.rst && x.cmdValid && s.outputs.cmdReady

/-- At the accepting edge cmd, opa and opb are copied into CAP_CMD, CAP_A and CAP_B (10_state.md R27). -/
def State.capture (s : State) (x : PortIn) : State :=
  { s with capCmd := x.cmd, capA := x.opa, capB := x.opb }

/-- The accepting edge of a command that takes more than one edge sets BUSY = 1 and CNT = LATENCY - 1
(70_reset_and_hazards.md R124). No response is written, so RSP_VALID is 0 after it (10_state.md R25). -/
def State.beginBusy (s : State) (latency : Nat) : State :=
  { s with busy := true, cnt := latency - 1, rspValid := false }

/-- A busy edge before the last decrements CNT (70_reset_and_hazards.md R124). -/
def State.countDown (s : State) : State := { s with cnt := s.cnt - 1, rspValid := false }

/-- What the completing edge does beside the response: RSP_VALID becomes 1, BUSY 0 and CNT 0
(70_reset_and_hazards.md R123, R124). -/
def State.finish (s : State) : State := { s with rspValid := true, busy := false, cnt := 0 }

/-- An edge that neither resets, accepts nor counts: the response registers hold (60_exceptions.md R114) and
RSP_VALID is 0 after it (10_state.md R25). -/
def State.hold (s : State) : State := { s with rspValid := false }

end Sys2Proof.Machine
end

