-- ==== Sys2Proof/Machine/Flags.lean ====
section
/-! DEFINITION. The block has no flags but STATUS (spec/10_state.md R28). This file holds the checks that
decide STATUS and their order (spec/60_exceptions.md R101, R104). -/

namespace Sys2Proof.Machine

/-- `prec_ok(p)` (41_scaler.md R75). -/
def precOk (p : Nat) : Bool := decide (Config.precMin ≤ p ∧ p ≤ Config.precMax)

/-- `child_prec_ok(p)` (43_subdivide.md R98): the child's precision p + 1 must be legal too. -/
def childPrecOk (p : Nat) : Bool := decide (Config.precMin ≤ p ∧ p + 1 ≤ Config.precMax)

/-- `c >> 2p == 0`: the code is well formed at p (00_scope.md R14, 41_scaler.md R81). -/
def codeOk (c : Word64) (p : Nat) : Bool := decide (c >>> (2 * p) = 0)

/-- A value in the half-open range `[lo, lo + width)`. A NaN is in none, and an infinity fails one bound
(41_scaler.md R74). -/
def inRange (x : F64) (lo width : ℚ) : Option ℚ :=
  match x with
  | .nan => none
  | .inf _ => none
  | .finite v => if lo ≤ v ∧ v < lo + width then some v else none

/-- `lat_ok(w)` with the value it accepts (41_scaler.md R74). -/
def latitude (x : F64) : Option ℚ := inRange x Config.latMin Config.latRange

/-- `lng_ok(w)` with the value it accepts (41_scaler.md R74). -/
def longitude (x : F64) : Option ℚ := inRange x Config.lngMin Config.lngRange

/-- The checks of DECODE, NEIGHBOR, NEIGHBORS and CHILD in their order: the precision, then the code
(41_scaler.md R81, 43_subdivide.md R98). -/
def withCode (precLegal : Nat → Bool) (p : Nat) (c : Word64) (result : Response) : Response :=
  if !precLegal p then raise .invalidPrecision
  else if !codeOk c p then raise .invalidCode
  else result

/-- The checks of SCALE and ENCODE in their order: the coordinates, then the precision (41_scaler.md R76).
`result` takes the latitude and the longitude. -/
def withCoordinates (p : Nat) (a b : F64) (result : ℚ → ℚ → Response) : Response :=
  match latitude a, longitude b with
  | some lat, some lng => if !precOk p then raise .invalidPrecision else result lat lng
  | some _, none => raise .invalidCoordinate
  | none, _ => raise .invalidCoordinate

end Sys2Proof.Machine
end

