-- ==== Sys2Proof/Machine/Interleave.lean ====
section
/-! DEFINITION. The bit interleaver: SPREAD, SQUASH, INTERLEAVE, DEINTERLEAVE (spec/40_interleave.md). Every
operand value is valid for them (spec/60_exceptions.md R102). -/

namespace Sys2Proof.Machine

/-- SPREAD (40_interleave.md R68). -/
def execSpread (s : State) : Host.Outcome State Fault Refusal :=
  answer (complete .ok 0 [spread s.indexA]) s

/-- SQUASH (40_interleave.md R69). -/
def execSquash (s : State) : Host.Outcome State Fault Refusal :=
  answer (complete .ok 0 [zext64 (squash s.codeA)]) s

/-- INTERLEAVE (40_interleave.md R70): the latitude index in A, the longitude index in B. -/
def execInterleave (s : State) : Host.Outcome State Fault Refusal :=
  answer (complete .ok 0 [interleave s.indexA s.indexB]) s

/-- DEINTERLEAVE (40_interleave.md R71): R0 the longitude index, R1 the latitude index (90_conflicts.md C1). -/
def execDeinterleave (s : State) : Host.Outcome State Fault Refusal :=
  answer (complete .ok 0 [zext64 (lngIdx s.codeA), zext64 (latIdx s.codeA)]) s

end Sys2Proof.Machine
end

