-- ==== Sys2Proof/Syntax.lean ====
section
/-! DEFINITION. The commands of the block: one constructor for each row of spec/opcode_table.json
(spec/30_encoding.md R49), with the fields of the command word that the row leaves free (R50). -/

namespace Sys2Proof

/-- The eight directions of 30_encoding.md R52, in the order of their codes 0 to 7. -/
inductive Direction where
  | north | east | south | west | northEast | southEast | southWest | northWest
deriving DecidableEq, Repr

/-- The four quadrant selectors of 30_encoding.md R53, in the order of their codes 0 to 3. -/
inductive Quadrant where
  | leftBottom | leftTop | rightBottom | rightTop
deriving DecidableEq, Repr

/-- A command. `p` is the PREC field read as an unsigned number (30_encoding.md R51); that it fits in the
field is a check of `Instr.wellFormed`, and whether it is a legal precision is each operation's own rule.
The operands A and B are not part of the command word (R47): they are read from the state. -/
inductive Instr where
  /-- 40_interleave.md R68 -/
  | spread
  /-- 40_interleave.md R69 -/
  | squash
  /-- 40_interleave.md R70 -/
  | interleave
  /-- 40_interleave.md R71 -/
  | deinterleave
  /-- 41_scaler.md R77 -/
  | scale (p : Nat)
  /-- 41_scaler.md R78 -/
  | encode (p : Nat)
  /-- 41_scaler.md R83 -/
  | decode (p : Nat)
  /-- 42_neighbor.md R93 -/
  | neighbor (p : Nat) (d : Direction)
  /-- 42_neighbor.md R94 -/
  | neighbors (p : Nat)
  /-- 43_subdivide.md R99 -/
  | child (p : Nat) (q : Quadrant)
deriving DecidableEq, Repr

end Sys2Proof
end

