-- ==== Sys2Proof/Machine/Neighbor.lean ====
section
/-! DEFINITION. The neighbour address calculator: NEIGHBOR and NEIGHBORS (spec/42_neighbor.md). `neighbor` is the
normative index arithmetic of R88; `moveLat` and `moveLng` are the bit-parallel datapath of R89 and R90. The wrap
stays inside the active bit field (R96). -/

namespace Sys2Proof.Machine

/-! ## Index arithmetic -/

/-- δlat (42_neighbor.md R87). North is +1 (92_eei_decisions.md D28). -/
def latDelta : Direction → Int
  | .north => 1
  | .east => 0
  | .south => -1
  | .west => 0
  | .northEast => 1
  | .southEast => -1
  | .southWest => -1
  | .northWest => 1

/-- δlng (42_neighbor.md R87). East is +1. -/
def lngDelta : Direction → Int
  | .north => 0
  | .east => 1
  | .south => 0
  | .west => -1
  | .northEast => 1
  | .southEast => 1
  | .southWest => -1
  | .northWest => -1

/-- `(idx + δ) mod 2^p`, the non-negative remainder (42_neighbor.md R88). -/
def moveIndex (idx : AxisWord) (δ : Int) (p : Nat) : AxisWord :=
  BitVec.ofNat 32 (((idx.toNat : Int) + δ) % ((2 ^ p : Nat) : Int)).toNat

/-- `neighbor(c, p, d)` (42_neighbor.md R88). -/
def neighbor (c : Word64) (p : Nat) (d : Direction) : Word64 :=
  interleave (moveIndex (latIdx c) (latDelta d) p) (moveIndex (lngIdx c) (lngDelta d) p)

/-! ## The datapath -/

/-- One axis move of 42_neighbor.md R89 and R90 on the moving axis's isolated bits y, with zz the other axis's
active mask and own the moving axis's: OR-ing in zz lets the carry or the borrow run through (90_conflicts.md
C4), and the last mask is the wrap. A move with δ = 0 is not made (R91). -/
def moveField (y zz own : Word64) (δ : Int) : Word64 :=
  if δ = 1 then ((y ||| zz) + 1) &&& own
  else if δ = -1 then ((y ||| zz) - (zz + 1)) &&& own
  else y

/-- `move_lat(c, p, δ)` (42_neighbor.md R89). -/
def moveLat (c : Word64) (p : Nat) (δ : Int) : Word64 :=
  (c &&& lngBits) ||| moveField (c &&& latBits) (lngAct p) (latAct p) δ

/-- `move_lng(c, p, δ)` (42_neighbor.md R90). -/
def moveLng (c : Word64) (p : Nat) (δ : Int) : Word64 :=
  moveField (c &&& lngBits) (latAct p) (lngAct p) δ ||| (c &&& latBits)

/-- The composition of 42_neighbor.md R91. -/
def neighborDatapath (c : Word64) (p : Nat) (d : Direction) : Word64 :=
  moveLng (moveLat c p (latDelta d)) p (lngDelta d)

/-! ## The commands -/

/-- NEIGHBOR (42_neighbor.md R93). -/
def execNeighbor (p : Nat) (d : Direction) (s : State) : Host.Outcome State Fault Refusal :=
  answer (withCode precOk p s.codeA (complete .ok p [neighbor s.codeA p d])) s

/-- The directions in the order of their codes, which is the order of NEIGHBORS' results (30_encoding.md R52,
42_neighbor.md R94). -/
def directions : List Direction :=
  [.north, .east, .south, .west, .northEast, .southEast, .southWest, .northWest]

/-- NEIGHBORS (42_neighbor.md R94): direction d to R[d]. -/
def execNeighbors (p : Nat) (s : State) : Host.Outcome State Fault Refusal :=
  answer (withCode precOk p s.codeA (complete .ok p (directions.map (neighbor s.codeA p)))) s

end Sys2Proof.Machine
end

