-- ==== Sys2Proof/Machine/Scaler.lean ====
section
/-! DEFINITION. The fixed-point coordinate scaler: SCALE, ENCODE, DECODE (spec/41_scaler.md). All arithmetic is
exact on rationals (R73, R80; spec/90_conflicts.md C2). -/

namespace Sys2Proof.Machine

/-- `axis_index(v, MIN, RANGE, p) = floor((v - MIN) * 2^p / RANGE)` (41_scaler.md R73). -/
def axisIndex (v lo width : ℚ) (p : Nat) : Nat := ((v - lo) * ((2 ^ p : Nat) : ℚ) / width).floor.toNat

/-- The latitude index of a latitude (41_scaler.md R77). -/
def latIndex (lat : ℚ) (p : Nat) : AxisWord :=
  BitVec.ofNat 32 (axisIndex lat Config.latMin Config.latRange p)

/-- The longitude index of a longitude (41_scaler.md R77). -/
def lngIndex (lng : ℚ) (p : Nat) : AxisWord :=
  BitVec.ofNat 32 (axisIndex lng Config.lngMin Config.lngRange p)

/-- `MIN + i * RANGE / 2^p`, the lower bound of cell i and the upper bound of cell i - 1 (41_scaler.md R82). -/
def cellBound (lo width : ℚ) (p i : Nat) : ℚ := lo + (i : ℚ) * width / ((2 ^ p : Nat) : ℚ)

/-- The bound `-90 + i * 180 / 2^p` (41_scaler.md R82). -/
def latBound (p i : Nat) : ℚ := cellBound Config.latMin Config.latRange p i

/-- The bound `-180 + i * 360 / 2^p` (41_scaler.md R82). -/
def lngBound (p i : Nat) : ℚ := cellBound Config.lngMin Config.lngRange p i

/-- SCALE (41_scaler.md R77): R0 the longitude index, R1 the latitude index. -/
def execScale (p : Nat) (s : State) : Host.Outcome State Fault Refusal :=
  answer (withCoordinates p s.coordA s.coordB fun lat lng =>
    complete .ok p [zext64 (lngIndex lng p), zext64 (latIndex lat p)]) s

/-- ENCODE (41_scaler.md R78). -/
def execEncode (p : Nat) (s : State) : Host.Outcome State Fault Refusal :=
  answer (withCoordinates p s.coordA s.coordB fun lat lng =>
    complete .ok p [interleave (latIndex lat p) (lngIndex lng p)]) s

/-- The response of DECODE for a code that is well formed at p (41_scaler.md R83): lat_lo, lat_hi, lng_lo,
lng_hi. -/
def cellResponse (p : Nat) (c : Word64) : Response :=
  let la := (latIdx c).toNat
  let ln := (lngIdx c).toNat
  complete .ok p
    [f64word (latBound p la), f64word (latBound p (la + 1)), f64word (lngBound p ln), f64word (lngBound p (ln + 1))]

/-- DECODE (41_scaler.md R83). -/
def execDecode (p : Nat) (s : State) : Host.Outcome State Fault Refusal :=
  answer (withCode precOk p s.codeA (cellResponse p s.codeA)) s

end Sys2Proof.Machine
end

