-- ==== Sys2Proof/WellFormed.lean ====
section
/-! DEFINITION. Which commands a command word can carry: the one bound that the types of Syntax.lean do
not already give is the width of the PREC field (spec/30_encoding.md R48, R51). -/

namespace Sys2Proof

/-- PREC is a 6-bit field: it holds 0 to 63 (30_encoding.md R51). A value the field holds but an operation
refuses (0, 33 and so on) is well formed: it is an INVALID_PRECISION, not an ill-formed command. -/
def precFits (p : Nat) : Bool := decide (p < 64)

/-- A command that some command word encodes (30_encoding.md R48). -/
def Instr.wellFormed : Instr → Bool
  | .spread => true
  | .squash => true
  | .interleave => true
  | .deinterleave => true
  | .scale p => precFits p
  | .encode p => precFits p
  | .decode p => precFits p
  | .neighbor p _ => precFits p
  | .neighbors p => precFits p
  | .child p _ => precFits p

end Sys2Proof
end

