-- ==== Sys2Proof/Decode.lean ====
section
/-! DEFINITION. The command word: its fields, which words are legal, the decoder, the opcode table and the
encoder (spec/30_encoding.md). The decoder is total and rejects by name. -/

namespace Sys2Proof

/-! ## Fields (30_encoding.md R48) -/

/-- OP, bits 3:0. -/
def opField (w : Word32) : BitVec 4 := w.extractLsb' 0 4

/-- PREC, bits 9:4. -/
def precField (w : Word32) : BitVec 6 := w.extractLsb' 4 6

/-- DIR, bits 12:10. -/
def dirField (w : Word32) : BitVec 3 := w.extractLsb' 10 3

/-- QUAD, bits 14:13. -/
def quadField (w : Word32) : BitVec 2 := w.extractLsb' 13 2

/-- RSVD, bits 31:15. -/
def rsvdField (w : Word32) : BitVec 17 := w.extractLsb' 15 17

/-! ## Direction codes and quadrant selectors (30_encoding.md R52, R53) -/

/-- The direction code d of 30_encoding.md R52. -/
def Direction.code : Direction → BitVec 3
  | .north => 0
  | .east => 1
  | .south => 2
  | .west => 3
  | .northEast => 4
  | .southEast => 5
  | .southWest => 6
  | .northWest => 7

/-- The direction a code selects: all eight are legal (30_encoding.md R52). -/
def directionOf (d : BitVec 3) : Direction :=
  if d = 0 then .north
  else if d = 1 then .east
  else if d = 2 then .south
  else if d = 3 then .west
  else if d = 4 then .northEast
  else if d = 5 then .southEast
  else if d = 6 then .southWest
  else .northWest

/-- The quadrant selector q of 30_encoding.md R53: bit 1 is the longitude bit, bit 0 the latitude bit. -/
def Quadrant.code : Quadrant → BitVec 2
  | .leftBottom => 0
  | .leftTop => 1
  | .rightBottom => 2
  | .rightTop => 3

/-- The quadrant a selector names: all four are legal (30_encoding.md R53). -/
def quadrantOf (q : BitVec 2) : Quadrant :=
  if q = 0 then .leftBottom
  else if q = 1 then .leftTop
  else if q = 2 then .rightBottom
  else .rightTop

/-! ## The decoder -/

/-- Why a command word is not legal (30_encoding.md R56). Each one is reported the same way, as
STATUS = ILLEGAL_COMMAND. -/
inductive Illegal where
  /-- a nonzero bit in CMD[31:15] (30_encoding.md R54) -/
  | reservedBits
  /-- OP is 0x0 or 0xB to 0xF (30_encoding.md R49) -/
  | reservedOpcode
  /-- PREC, DIR or QUAD is nonzero where the operation requires zero (30_encoding.md R50) -/
  | unusedField
deriving DecidableEq, Repr

/-- `i`, if every field the operation does not use is zero (30_encoding.md R50). -/
def requireZero (zero : Bool) (i : Instr) : Except Illegal Instr :=
  if zero then .ok i else .error .unusedField

/-- The command a word carries (30_encoding.md R49 to R54, R56). -/
def decode (w : Word32) : Except Illegal Instr :=
  let p := (precField w).toNat
  let noPrec := decide (precField w = 0)
  let noDir := decide (dirField w = 0)
  let noQuad := decide (quadField w = 0)
  let op := (opField w).toNat
  if rsvdField w ≠ 0 then .error .reservedBits
  else if op = 0x1 then requireZero (noPrec && noDir && noQuad) .spread
  else if op = 0x2 then requireZero (noPrec && noDir && noQuad) .squash
  else if op = 0x3 then requireZero (noPrec && noDir && noQuad) .interleave
  else if op = 0x4 then requireZero (noPrec && noDir && noQuad) .deinterleave
  else if op = 0x5 then requireZero (noDir && noQuad) (.scale p)
  else if op = 0x6 then requireZero (noDir && noQuad) (.encode p)
  else if op = 0x7 then requireZero (noDir && noQuad) (.decode p)
  else if op = 0x8 then requireZero noQuad (.neighbor p (directionOf (dirField w)))
  else if op = 0x9 then requireZero (noDir && noQuad) (.neighbors p)
  else if op = 0xA then requireZero noDir (.child p (quadrantOf (quadField w)))
  else .error .reservedOpcode

/-- `legal(CMD)` as 30_encoding.md R56 spells it. The decoder does not call it: that the two agree is a
statement. -/
def legal (w : Word32) : Bool :=
  decide (rsvdField w = 0)
    && decide (1 ≤ (opField w).toNat ∧ (opField w).toNat ≤ 0xA)
    && (decide (5 ≤ (opField w).toNat ∧ (opField w).toNat ≤ 0xA) || decide (precField w = 0))
    && (decide ((opField w).toNat = 0x8) || decide (dirField w = 0))
    && (decide ((opField w).toNat = 0xA) || decide (quadField w = 0))

/-! ## The encoder (the assembler's encoding function of 30_encoding.md R48) -/

/-- OP of each operation (30_encoding.md R49). -/
def Instr.opcode : Instr → Nat
  | .spread => 0x1
  | .squash => 0x2
  | .interleave => 0x3
  | .deinterleave => 0x4
  | .scale _ => 0x5
  | .encode _ => 0x6
  | .decode _ => 0x7
  | .neighbor _ _ => 0x8
  | .neighbors _ => 0x9
  | .child _ _ => 0xA

/-- PREC of each command, 0 where the operation does not use it (30_encoding.md R50). -/
def Instr.prec : Instr → Nat
  | .spread => 0
  | .squash => 0
  | .interleave => 0
  | .deinterleave => 0
  | .scale p => p
  | .encode p => p
  | .decode p => p
  | .neighbor p _ => p
  | .neighbors p => p
  | .child p _ => p

/-- DIR of each command, 0 where the operation does not use it (30_encoding.md R50). -/
def Instr.dir : Instr → BitVec 3
  | .spread => 0
  | .squash => 0
  | .interleave => 0
  | .deinterleave => 0
  | .scale _ => 0
  | .encode _ => 0
  | .decode _ => 0
  | .neighbor _ d => d.code
  | .neighbors _ => 0
  | .child _ _ => 0

/-- QUAD of each command, 0 where the operation does not use it (30_encoding.md R50). -/
def Instr.quad : Instr → BitVec 2
  | .spread => 0
  | .squash => 0
  | .interleave => 0
  | .deinterleave => 0
  | .scale _ => 0
  | .encode _ => 0
  | .decode _ => 0
  | .neighbor _ _ => 0
  | .neighbors _ => 0
  | .child _ q => q.code

/-- `CMD = OP | (PREC << 4) | (DIR << 10) | (QUAD << 13)` (30_encoding.md R48). The word of a well-formed
command. -/
def encode (i : Instr) : Word32 :=
  BitVec.ofNat 32 i.opcode
    ||| (BitVec.ofNat 32 i.prec <<< 4)
    ||| (i.dir.setWidth 32 <<< 10)
    ||| (i.quad.setWidth 32 <<< 13)

/-! ## The opcode table (30_encoding.md R57) -/

/-- One row of 30_encoding.md R57: a word w is in the row when `w & mask = pattern`. -/
structure OpcodeRow where
  mnemonic : String
  pattern : Word32
  mask : Word32
deriving DecidableEq, Repr

/-- A word is in a row (30_encoding.md R57). -/
def OpcodeRow.covers (row : OpcodeRow) (w : Word32) : Bool := decide (w &&& row.mask = row.pattern)

/-- The ten rows of 30_encoding.md R57. -/
def opcodeTable : List OpcodeRow :=
  [ ⟨"SPREAD", 0x00000001, 0xFFFFFFFF⟩,
    ⟨"SQUASH", 0x00000002, 0xFFFFFFFF⟩,
    ⟨"INTERLEAVE", 0x00000003, 0xFFFFFFFF⟩,
    ⟨"DEINTERLEAVE", 0x00000004, 0xFFFFFFFF⟩,
    ⟨"SCALE", 0x00000005, 0xFFFFFC0F⟩,
    ⟨"ENCODE", 0x00000006, 0xFFFFFC0F⟩,
    ⟨"DECODE", 0x00000007, 0xFFFFFC0F⟩,
    ⟨"NEIGHBOR", 0x00000008, 0xFFFFE00F⟩,
    ⟨"NEIGHBORS", 0x00000009, 0xFFFFFC0F⟩,
    ⟨"CHILD", 0x0000000A, 0xFFFF9C0F⟩ ]

/-- The table's mnemonic for a command (30_encoding.md R49). -/
def Instr.mnemonic : Instr → String
  | .spread => "SPREAD"
  | .squash => "SQUASH"
  | .interleave => "INTERLEAVE"
  | .deinterleave => "DEINTERLEAVE"
  | .scale _ => "SCALE"
  | .encode _ => "ENCODE"
  | .decode _ => "DECODE"
  | .neighbor _ _ => "NEIGHBOR"
  | .neighbors _ => "NEIGHBORS"
  | .child _ _ => "CHILD"

/-! ## The host's view of the decoder -/

/-- The command word that a table row's bits stand for: every command is one 32-bit word (30_encoding.md
R47, R59), moved whole, so no byte order arises (20_memory.md R37). -/
def wordOfTableBits (nbits w : Nat) : Word32 := BitVec.ofNat 32 (w % 2 ^ nbits)

/-- The instruction the decoder reads from the first `nbits` bits `w`, none where it refuses or where
`nbits` is more than a command word has (30_encoding.md R59). -/
def decodeTableWord (nbits w : Nat) : Option Instr :=
  if nbits ≤ 32 then (decode (wordOfTableBits nbits w)).toOption else none

end Sys2Proof
end

