-- ==== Sys2Proof/Machine/Subdivide.lean ====
section
/-! DEFINITION. Subdivision: CHILD (spec/43_subdivide.md). -/

namespace Sys2Proof.Machine

/-- `child(c, q) = (c << 2) | q` (43_subdivide.md R97). -/
def child (c : Word64) (q : BitVec 2) : Word64 := (c <<< 2) ||| q.setWidth 64

/-- CHILD (43_subdivide.md R99): PREC_OUT is p + 1. -/
def execChild (p : Nat) (q : Quadrant) (s : State) : Host.Outcome State Fault Refusal :=
  answer (withCode childPrecOk p s.codeA (complete .ok (p + 1) [child s.codeA q.code])) s

end Sys2Proof.Machine
end

