-- ==== Sys2Proof/Machine/Dispatch.lean ====
section
/-! DEFINITION. One arm for each command: its meaning. -/

namespace Sys2Proof.Machine

/-- What a command does to the state at its completing edge: it writes its response, computed from the captured
operands (70_reset_and_hazards.md R122). -/
def exec (i : Instr) (s : State) : Host.Outcome State Fault Refusal :=
  match i with
  | .spread => Sys2Proof.Machine.execSpread s
  | .squash => Sys2Proof.Machine.execSquash s
  | .interleave => Sys2Proof.Machine.execInterleave s
  | .deinterleave => Sys2Proof.Machine.execDeinterleave s
  | .scale p => Sys2Proof.Machine.execScale p s
  | .encode p => Sys2Proof.Machine.execEncode p s
  | .decode p => Sys2Proof.Machine.execDecode p s
  | .neighbor p d => Sys2Proof.Machine.execNeighbor p d s
  | .neighbors p => Sys2Proof.Machine.execNeighbors p s
  | .child p q => Sys2Proof.Machine.execChild p q s

end Sys2Proof.Machine
end

