-- ==== Sys2Proof/Machine/Edge.lean ====
section
/-! DEFINITION. One rising edge of clk (spec/70_reset_and_hazards.md R116 to R125), for any LATENCY. Step.lean
takes it at the implementation's LATENCY. -/

namespace Sys2Proof.Machine

/-- The completing edge of the captured command: it writes the command's response, or ILLEGAL_COMMAND for a word
that is not legal, whose operands are not examined (30_encoding.md R56), and with it RSP_VALID, BUSY and CNT
(70_reset_and_hazards.md R123, R124). -/
def completionEdge (s : State) : Host.Outcome State Fault Refusal :=
  match decode s.capCmd with
  | .error _ => .next (s.writeResponse (raise .illegalCommand)).finish
  | .ok i =>
    match exec i s with
    | .next t => .next t.finish
    | .fault f => .fault f
    | .refused f => .refused f

/-- One rising edge at which the input ports carry x. Reset wins over everything (70_reset_and_hazards.md R116,
R117); a busy block counts and completes, whatever is offered (R124); an idle block accepts what is offered
(10_state.md R26), and with LATENCY = 1 completes it at the accepting edge itself. -/
def edgeWith (latency : Nat) (x : PortIn) (s : State) : Host.Outcome State Fault Refusal :=
  if x.rst then .next s.resetEdge
  else if s.busy then
    if s.cnt - 1 = 0 then completionEdge s else .next s.countDown
  else if accepts x s then
    if latency - 1 = 0 then completionEdge (s.capture x) else .next ((s.capture x).beginBusy latency)
  else .next s.hold

/-- One rising edge with the inputs that the state lists for it. -/
def edge (latency : Nat) (s : State) : Host.Outcome State Fault Refusal :=
  edgeWith latency s.sample s.advance

end Sys2Proof.Machine
end

