-- ==== Sys2Proof/Machine/Step.lean ====
section
/-! DEFINITION. The step of the machine, one rising edge of clk at the implementation's LATENCY, and the host's
way to place a command where the next step runs it. -/

namespace Sys2Proof.Machine

/-- One rising edge of clk. -/
def step (s : State) : Host.Outcome State Fault Refusal := edge Config.latency s

/-- The state in which the command word w is captured and the very next edge is its completing edge: it is in
CAP_CMD, BUSY is 1, CNT is 1 and the ports are idle at that edge. The operands are the state's own CAP_A and
CAP_B. Log entry 7 says how a command comes to stand there. -/
def State.withFetchWord (s : State) (nbits w : Nat) : State :=
  { s with
    capCmd := wordOfTableBits nbits w
    busy := true
    cnt := 1
    inputs := PortIn.idle :: s.inputs }

end Sys2Proof.Machine
end

