-- ==== Sys2Proof/Machine/Assembler.lean ====
section
/-! DEFINITION. The assembler syntax of spec/30_encoding.md R60 to R62: the host-side map from one line of text to
a command word and its two operands. The block never sees a line; no step uses this file. -/

namespace Sys2Proof.Machine

/-- What the host puts on cmd, opa and opb for one command (30_encoding.md R47). -/
structure Command where
  cmd : Word32
  a : Word64
  b : Word64
deriving DecidableEq, Repr

/-! ## Numbers -/

/-- The value of a digit, 0 to 15. -/
def digitValue (c : Char) : Option Nat :=
  if '0' ≤ c ∧ c ≤ '9' then some (c.toNat - '0'.toNat)
  else if 'a' ≤ c ∧ c ≤ 'f' then some (c.toNat - 'a'.toNat + 10)
  else if 'A' ≤ c ∧ c ≤ 'F' then some (c.toNat - 'A'.toNat + 10)
  else none

/-- Digits of a base appended to the number read so far. -/
def digitsOnto (base : Nat) : List Char → Nat → Option Nat
  | [], n => some n
  | c :: cs, n =>
    match digitValue c with
    | none => none
    | some d => if d < base then digitsOnto base cs (base * n + d) else none

/-- At least one digit of a base. -/
def number (base : Nat) (cs : List Char) : Option Nat :=
  if cs.isEmpty then none else digitsOnto base cs 0

/-- The unsigned literals of 30_encoding.md R61. -/
def naturalLiteral : List Char → Option Nat
  | '0' :: 'x' :: cs => number 16 cs
  | '0' :: 'b' :: cs => number 2 cs
  | cs => number 10 cs

/-- Text before the first `sep`, and the text after it if there is one. -/
def splitFirst (sep : Char) : List Char → List Char × Option (List Char)
  | [] => ([], none)
  | c :: cs =>
    if c = sep then ([], some cs)
    else
      let (before, after) := splitFirst sep cs
      (c :: before, after)

/-- The value of a decimal without its sign: digits, or digits, a point and digits. -/
def decimalValue (cs : List Char) : Option ℚ :=
  match splitFirst '.' cs with
  | (whole, none) => (number 10 whole).map fun n => (n : ℚ)
  | (whole, some part) =>
    match number 10 whole, number 10 part with
    | some n, some m => some (mkRat (n * 10 ^ part.length + m : Nat) (10 ^ part.length))
    | _, _ => none

/-- The text after `f64:` (30_encoding.md R61): a decimal with an optional minus sign, `nan` or `inf`. -/
def f64Literal : List Char → Option Word64
  | 'n' :: 'a' :: 'n' :: [] => some 0x7FF8000000000000
  | 'i' :: 'n' :: 'f' :: [] => some 0x7FF0000000000000
  | '-' :: cs => (decimalValue cs).map (f64nearest true)
  | cs => (decimalValue cs).map (f64nearest false)

/-- An operand literal (30_encoding.md R61): "A value above 2^64 - 1 is refused by the assembler." -/
def operandLiteral : List Char → Option Word64
  | 'f' :: '6' :: '4' :: ':' :: cs => f64Literal cs
  | cs =>
    match naturalLiteral cs with
    | some n => if n < 2 ^ 64 then some (BitVec.ofNat 64 n) else none
    | none => none

/-! ## Lines -/

/-- The space-separated words of a line, the word being read in reverse. -/
def wordsOnto : List Char → List Char → List (List Char)
  | [], w => if w.isEmpty then [] else [w.reverse]
  | c :: cs, w =>
    if c = ' ' then (if w.isEmpty then wordsOnto cs [] else w.reverse :: wordsOnto cs [])
    else wordsOnto cs (c :: w)

/-- The words of a line. -/
def lineWords (cs : List Char) : List (List Char) := wordsOnto cs []

/-- The text of a leading argument `<key>=<text>`, if the first word is one, and the words after it. -/
def takeArgument (key : Char) : List (List Char) → Option (List Char) × List (List Char)
  | (k :: '=' :: text) :: ws => if k = key then (some text, ws) else (none, (k :: '=' :: text) :: ws)
  | ws => (none, ws)

/-- The operands `[a=<operand>] [b=<operand>]`, 0 where omitted, with nothing after them (30_encoding.md R60). -/
def operands (ws : List (List Char)) : Option (Word64 × Word64) :=
  let (ta, ws) := takeArgument 'a' ws
  let (tb, ws) := takeArgument 'b' ws
  if !ws.isEmpty then none
  else
    match (ta.map operandLiteral).getD (some 0), (tb.map operandLiteral).getD (some 0) with
    | some a, some b => some (a, b)
    | _, _ => none

/-- `p=<n>`, a decimal 0..63, 0 where omitted (30_encoding.md R60), and the words after it. -/
def precArgument (ws : List (List Char)) : Option (Nat × List (List Char)) :=
  match takeArgument 'p' ws with
  | (none, ws) => some (0, ws)
  | (some text, ws) =>
    match number 10 text with
    | some p => if p < 64 then some (p, ws) else none
    | none => none

/-- The direction symbols of 30_encoding.md R52. -/
def directionSymbol (cs : List Char) : Option Direction :=
  if cs = "N".toList then some .north
  else if cs = "E".toList then some .east
  else if cs = "S".toList then some .south
  else if cs = "W".toList then some .west
  else if cs = "NE".toList then some .northEast
  else if cs = "SE".toList then some .southEast
  else if cs = "SW".toList then some .southWest
  else if cs = "NW".toList then some .northWest
  else none

/-- The child symbols of 30_encoding.md R53. -/
def quadrantSymbol (cs : List Char) : Option Quadrant :=
  if cs = "LB".toList then some .leftBottom
  else if cs = "LT".toList then some .leftTop
  else if cs = "RB".toList then some .rightBottom
  else if cs = "RT".toList then some .rightTop
  else none

/-- A command that takes no precision has PREC = 0: a word with PREC set there is illegal, and `CMD` is the only
spelling of illegal words (30_encoding.md R62; DEDUCED, log entry 8). -/
def withoutPrec (p : Nat) (i : Instr) : Option Instr := if p = 0 then some i else none

/-- The command a mnemonic without a suffix names, pseudo-instructions included (30_encoding.md R60, R62). -/
def plainMnemonic (name : List Char) (p : Nat) : Option Instr :=
  if name = "SPREAD".toList then withoutPrec p .spread
  else if name = "SQUASH".toList then withoutPrec p .squash
  else if name = "INTERLEAVE".toList then withoutPrec p .interleave
  else if name = "DEINTERLEAVE".toList then withoutPrec p .deinterleave
  else if name = "SCALE".toList then some (.scale p)
  else if name = "ENCODE".toList then some (.encode p)
  else if name = "DECODE".toList then some (.decode p)
  else if name = "NEIGHBORS".toList then some (.neighbors p)
  else if name = "LEFT_BOTTOM".toList then some (.child p .leftBottom)
  else if name = "LEFT_TOP".toList then some (.child p .leftTop)
  else if name = "RIGHT_BOTTOM".toList then some (.child p .rightBottom)
  else if name = "RIGHT_TOP".toList then some (.child p .rightTop)
  else none

/-- The command a mnemonic with a suffix names: "NEIGHBOR and CHILD require one", and no other takes one
(30_encoding.md R60). -/
def suffixedMnemonic (name suffix : List Char) (p : Nat) : Option Instr :=
  if name = "NEIGHBOR".toList then (directionSymbol suffix).map (.neighbor p)
  else if name = "CHILD".toList then (quadrantSymbol suffix).map (.child p)
  else none

/-- `CMD <word> [a=…] [b=…]`: the raw word (30_encoding.md R62). The spec does not say which literals `<word>` may be:
R61 speaks of operand literals, and the spec's own lines write 0x words only. DESIGN CHOICE (log entry 8): `<word>` is
any of R61's unsigned forms, 0x, 0b or decimal, and no `f64:` form, and it is refused above 2^32 - 1. -/
def rawCommand : List (List Char) → Option Command
  | [] => none
  | text :: ws =>
    match naturalLiteral text, operands ws with
    | some w, some (a, b) => if w < 2 ^ 32 then some { cmd := BitVec.ofNat 32 w, a := a, b := b } else none
    | _, _ => none

/-- `<mnemonic>[.<suffix>] [p=<n>] [a=<operand>] [b=<operand>]` (30_encoding.md R60). -/
def mnemonicCommand (head : List Char) (ws : List (List Char)) : Option Command :=
  match precArgument ws with
  | none => none
  | some (p, ws) =>
    let instr :=
      match splitFirst '.' head with
      | (name, none) => plainMnemonic name p
      | (name, some suffix) => suffixedMnemonic name suffix p
    match instr, operands ws with
    | some i, some (a, b) => some { cmd := encode i, a := a, b := b }
    | _, _ => none

/-- The command one line stands for, none where the line is not in the syntax (30_encoding.md R60 to R62). -/
def assemble (line : String) : Option Command :=
  match lineWords line.toList with
  | [] => none
  | head :: ws => if head = "CMD".toList then rawCommand ws else mnemonicCommand head ws

end Sys2Proof.Machine
end

