-- ==== Sys2Proof/Safety.lean ====
section
/-! DEFINITION. The terms that the claims about the machine use: what a command leaves unchanged, valid operands,
the response as a function of the command alone, runs of edges, and the invariant of every state after reset. -/

namespace Sys2Proof.Machine

/-- Nothing but STATUS, PREC_OUT and R0 to R7 differs: the frame of every command (spec/10_state.md R24). -/
def SameOutsideResponse (s t : State) : Prop :=
  t.rspValid = s.rspValid ∧ t.busy = s.busy ∧ t.cnt = s.cnt ∧ t.capCmd = s.capCmd ∧ t.capA = s.capA ∧
    t.capB = s.capB ∧ t.inputs = s.inputs ∧ t.freeCount = s.freeCount

/-- The response registers hold this STATUS, this PREC_OUT, these results from R0 on, and 0 in every other result
register. -/
def State.shows (t : State) (status : BitVec 3) (prec : Nat) (rs : List Word64) : Prop :=
  t.status = status ∧ t.precOut.toNat = prec ∧ ∀ k : Fin 8, t.r[k] = rs.getD k.val 0

/-- A latitude operand and its value (spec/41_scaler.md R74). -/
def IsLatitude (w : Word64) (lat : ℚ) : Prop := f64val w = .finite lat ∧ -90 ≤ lat ∧ lat < 90

/-- A longitude operand and its value (spec/41_scaler.md R74). -/
def IsLongitude (w : Word64) (lng : ℚ) : Prop := f64val w = .finite lng ∧ -180 ≤ lng ∧ lng < 180

/-- A code is well formed at p when no bit at or above position 2p is set (spec/00_scope.md R14). -/
def WellFormedCode (c : Word64) (p : Nat) : Prop := ∀ k, 2 * p ≤ k → c.getLsbD k = false

/-- The table of spec/42_neighbor.md R87: each direction with its moves, (direction, δlat, δlng). Written out here so
that the claims do not take it from the model's own `latDelta` and `lngDelta`. -/
def directionMoves : List (Direction × ℤ × ℤ) :=
  [(.north, 1, 0), (.east, 0, 1), (.south, -1, 0), (.west, 0, -1),
   (.northEast, 1, 1), (.southEast, -1, 1), (.southWest, -1, -1), (.northWest, 1, -1)]

/-- `response(CMD, A, B)` of spec/70_reset_and_hazards.md R122: what the completing edge of this command writes on
a block that has just been reset. It depends on nothing else. -/
def responseOf (cmd : Word32) (a b : Word64) : Option Response :=
  match completionEdge { State.reset with capCmd := cmd, capA := a, capB := b } with
  | .next t => some t.response
  | .fault _ => none
  | .refused _ => none

/-- The cell that ENCODE at precision p and then DECODE of its code give for the coordinate in CAP_A and CAP_B, as
the exact values of DECODE's R0 to R3 (spec/41_scaler.md R85). -/
def EncodedCell (s : State) (p : Nat) (latLo latHi lngLo lngHi : ℚ) : Prop :=
  ∃ t u : State, exec (.encode p) s = .next t ∧ exec (.decode p) { t with capA := t.r[0] } = .next u ∧
    u.status = 1 ∧ f64val u.r[0] = .finite latLo ∧ f64val u.r[1] = .finite latHi ∧
    f64val u.r[2] = .finite lngLo ∧ f64val u.r[3] = .finite lngHi

/-- No reset and no command is offered at the sampled edges. -/
def QuietInputs (xs : List PortIn) : Prop := ∀ x ∈ xs, x.rst = false ∧ x.cmdValid = false

/-- No reset is asserted at the sampled edges; what else the ports carry is free. -/
def NoReset (xs : List PortIn) : Prop := ∀ x ∈ xs, x.rst = false

/-- n rising edges of a block of this LATENCY. -/
def edges (latency : Nat) : Nat → State → Host.Outcome State Fault Refusal
  | 0, s => .next s
  | n + 1, s =>
    match edge latency s with
    | .next t => edges latency n t
    | .fault f => .fault f
    | .refused f => .refused f

/-- The response registers and RSP_VALID, BUSY and CNT are as spec/10_state.md R30 gives them. -/
def State.AtResetValues (s : State) : Prop :=
  s.status = 0 ∧ s.precOut = 0 ∧ (∀ k : Fin 8, s.r[k] = 0) ∧ s.rspValid = false ∧ s.busy = false ∧ s.cnt = 0

/-- What holds of every state after the first reset: STATUS and PREC_OUT never hold a value that is never written
(spec/10_state.md R29), only a successful response shows a result (R23, spec/60_exceptions.md R103), RSP_VALID
shows a response that some command wrote and never beside BUSY, and BUSY and CNT keep the countdown of
spec/70_reset_and_hazards.md R124. -/
structure State.Inv (s : State) : Prop where
  status_written : s.status.toNat ≤ 5
  prec_written : s.precOut.toNat ≤ 32
  results_only_when_ok : s.status ≠ 1 → s.precOut = 0 ∧ ∀ k : Fin 8, s.r[k] = 0
  valid_shows_response : s.rspValid = true → s.status ≠ 0 ∧ s.busy = false
  busy_counts : s.busy = true ↔ 0 < s.cnt
  count_bounded : s.cnt < Config.latency

end Sys2Proof.Machine
end

