-- ==== Sys2Proof/Certificates/Slice0/Obligations.lean ====
section
/-! DEFINITION. The statements for the provers, each from numbered rules of spec/. -/

open Sys2Proof Sys2Proof.Machine

/-! ## Encoding -/

/-- Every well-formed command is read back from its own word: the encoder and the decoder agree (R48 to R53). -/
def Obligations.DecodeInvertsEncode : Prop :=
  ∀ i : Instr, i.wellFormed = true → decode (encode i) = .ok i

/-- Every legal word is the word of the command it carries, and that command is well formed: no bit of a legal word
is dropped (R48, R56). -/
def Obligations.EncodeInvertsDecode : Prop :=
  ∀ (w : Word32) (i : Instr), decode w = .ok i → i.wellFormed = true ∧ encode i = w

/-- R57: the legal words are exactly the ten rows, each word is in at most one row, and the row names the command. -/
def Obligations.LegalWordsAreTheTableRows : Prop :=
  let table : List (String × Word32 × Word32) :=
    [("SPREAD", 0x00000001, 0xFFFFFFFF), ("SQUASH", 0x00000002, 0xFFFFFFFF),
     ("INTERLEAVE", 0x00000003, 0xFFFFFFFF), ("DEINTERLEAVE", 0x00000004, 0xFFFFFFFF),
     ("SCALE", 0x00000005, 0xFFFFFC0F), ("ENCODE", 0x00000006, 0xFFFFFC0F),
     ("DECODE", 0x00000007, 0xFFFFFC0F), ("NEIGHBOR", 0x00000008, 0xFFFFE00F),
     ("NEIGHBORS", 0x00000009, 0xFFFFFC0F), ("CHILD", 0x0000000A, 0xFFFF9C0F)]
  ∀ w : Word32,
    ((∃ i, decode w = .ok i) ↔ ∃ row ∈ table, w &&& row.2.2 = row.2.1) ∧
    (∀ r₁ ∈ table, ∀ r₂ ∈ table, w &&& r₁.2.2 = r₁.2.1 → w &&& r₂.2.2 = r₂.2.1 → r₁ = r₂) ∧
    (∀ i, decode w = .ok i → ∀ row ∈ table, w &&& row.2.2 = row.2.1 → i.mnemonic = row.1)

/-- R56: a captured word completes with ILLEGAL_COMMAND exactly when it is not legal, whatever the operands. -/
def Obligations.IllegalWordsReportIllegalCommand : Prop :=
  ∀ s : State, ∃ t, completionEdge s = .next t ∧
    let op := (s.capCmd.extractLsb' 0 4).toNat
    let isLegal := s.capCmd.extractLsb' 15 17 = 0 ∧ (1 ≤ op ∧ op ≤ 0xA) ∧
      ((5 ≤ op ∧ op ≤ 0xA) ∨ s.capCmd.extractLsb' 4 6 = 0) ∧
      (op = 8 ∨ s.capCmd.extractLsb' 10 3 = 0) ∧ (op = 0xA ∨ s.capCmd.extractLsb' 13 2 = 0)
    (isLegal → t.status ≠ 5) ∧ (¬isLegal → t.shows 5 0 [])

/-- R52 and R53: with PREC at any value, the direction codes 0 to 7 and the quadrant selectors 0 to 3 select these
directions and children, and all are legal. -/
def Obligations.DirectionAndQuadrantCodes : Prop :=
  ∀ p : Nat, p < 64 →
    let neighborWord (d : Word32) : Word32 := 0x8 ||| (BitVec.ofNat 32 p <<< 4) ||| (d <<< 10)
    let childWord (q : Word32) : Word32 := 0xA ||| (BitVec.ofNat 32 p <<< 4) ||| (q <<< 13)
    decode (neighborWord 0) = .ok (.neighbor p .north) ∧ decode (neighborWord 1) = .ok (.neighbor p .east) ∧
    decode (neighborWord 2) = .ok (.neighbor p .south) ∧ decode (neighborWord 3) = .ok (.neighbor p .west) ∧
    decode (neighborWord 4) = .ok (.neighbor p .northEast) ∧ decode (neighborWord 5) = .ok (.neighbor p .southEast) ∧
    decode (neighborWord 6) = .ok (.neighbor p .southWest) ∧ decode (neighborWord 7) = .ok (.neighbor p .northWest) ∧
    decode (childWord 0) = .ok (.child p .leftBottom) ∧ decode (childWord 1) = .ok (.child p .leftTop) ∧
    decode (childWord 2) = .ok (.child p .rightBottom) ∧ decode (childWord 3) = .ok (.child p .rightTop)

/-- R63: the ten encoding examples, from the assembler line to the word and from the word to the command. -/
def Obligations.EncodingExamples : Prop :=
  (assemble "SPREAD a=0xFFFFFFFF" = some ⟨0x00000001, 0xFFFFFFFF, 0⟩ ∧ decode 0x00000001 = .ok .spread) ∧
  (assemble "INTERLEAVE a=20936 b=27439" = some ⟨0x00000003, 20936, 27439⟩ ∧ decode 0x00000003 = .ok .interleave) ∧
  (assemble "ENCODE p=15 a=f64:25.006 b=f64:121.46" = some ⟨0x000000F6, 0x40390189374BC6A8, 0x405E5D70A3D70A3D⟩ ∧
    decode 0x000000F6 = .ok (.encode 15)) ∧
  (assemble "DECODE p=15 a=0x398B58EA" = some ⟨0x000000F7, 0x398B58EA, 0⟩ ∧ decode 0x000000F7 = .ok (.decode 15)) ∧
  (assemble "NEIGHBOR.NE p=15 a=0x398B58EA" = some ⟨0x000010F8, 0x398B58EA, 0⟩ ∧
    decode 0x000010F8 = .ok (.neighbor 15 .northEast)) ∧
  (assemble "NEIGHBOR.W p=3 a=0" = some ⟨0x00000C38, 0, 0⟩ ∧ decode 0x00000C38 = .ok (.neighbor 3 .west)) ∧
  (assemble "NEIGHBORS p=15 a=0x398B58EA" = some ⟨0x000000F9, 0x398B58EA, 0⟩ ∧
    decode 0x000000F9 = .ok (.neighbors 15)) ∧
  (assemble "CHILD.RT p=15 a=0x398B58EA" = some ⟨0x000060FA, 0x398B58EA, 0⟩ ∧
    decode 0x000060FA = .ok (.child 15 .rightTop)) ∧
  (assemble "CHILD.LB p=32 a=0" = some ⟨0x0000020A, 0, 0⟩ ∧ decode 0x0000020A = .ok (.child 32 .leftBottom)) ∧
  (assemble "ENCODE p=33 a=f64:0 b=f64:0" = some ⟨0x00000216, 0, 0⟩ ∧ decode 0x00000216 = .ok (.encode 33))

/-- R62: a line that opens with a pseudo-instruction assembles to what its expansion with the same arguments
assembles to, and with the arguments `p=<n> a=<c>` to the CHILD word of that precision and quadrant with A = c. A line
`CMD <word> …` gives the raw word and the operands. Every other line gives a legal word, so CMD is the only spelling of
illegal words. What a word's text may be, its bound 2^32 - 1, and the order of the arguments are the model's choice, log
entry 8. -/
def Obligations.PseudoInstructionsExpand : Prop :=
  let table : List (String × String × Word32) :=
    [("LEFT_BOTTOM", "CHILD.LB", 0), ("LEFT_TOP", "CHILD.LT", 1), ("RIGHT_BOTTOM", "CHILD.RB", 2),
     ("RIGHT_TOP", "CHILD.RT", 3)]
  (∀ row ∈ table, ∀ (line expansion : String) (ws : List (List Char)),
    lineWords line.toList = row.1.toList :: ws → lineWords expansion.toList = row.2.1.toList :: ws →
    assemble line = assemble expansion ∧
    ∀ (precText codeText : List Char) (p : Nat) (c : Word64),
      ws = [['p', '='] ++ precText, ['a', '='] ++ codeText] → number 10 precText = some p → p < 64 →
      operandLiteral codeText = some c →
      assemble line = some ⟨0x0000000A ||| (BitVec.ofNat 32 p <<< 4) ||| (row.2.2 <<< 13), c, 0⟩) ∧
  (∀ (line : String) (text : List Char) (ws : List (List Char)) (w : Nat) (a b : Word64),
    lineWords line.toList = "CMD".toList :: text :: ws → naturalLiteral text = some w → w < 2 ^ 32 →
    operands ws = some (a, b) → assemble line = some ⟨BitVec.ofNat 32 w, a, b⟩) ∧
  ∀ (line : String) (c : Command), assemble line = some c → (lineWords line.toList).head? ≠ some "CMD".toList →
    ∃ i, decode c.cmd = .ok i

/-! ## Reset -/

/-- R30: the reset values, and `cmd_ready = 1`. -/
def Obligations.ResetStateHoldsResetValues : Prop :=
  State.reset.AtResetValues ∧ State.reset.outputs.cmdReady = true

/-- R116: after any number of reset edges, one at least, from any state whatever, the registers hold their reset
values and nothing has been accepted. -/
def Obligations.ResetEdgesGiveResetValues : Prop :=
  ∀ (latency n : Nat) (s : State), 0 < n → n ≤ s.inputs.length → (∀ x ∈ s.inputs.take n, x.rst = true) →
    ∃ t, edges latency n s = .next t ∧ t.AtResetValues

/-- R117: a reset edge abandons the command in flight. The registers take their reset values, and while nothing else
is offered they keep them: no response ever comes. -/
def Obligations.ResetAbandonsCommandInFlight : Prop :=
  ∀ (latency n : Nat) (s : State), s.busy = true → s.sample.rst = true → QuietInputs (s.inputs.tail.take n) →
    ∃ t, edges latency (n + 1) s = .next t ∧ t.AtResetValues

/-- The unspecified CAP_CMD, CAP_A and CAP_B of an idle block never show at the output ports: no rule reads them
before the next acceptance overwrites them (R27, R30). -/
def Obligations.IdleCapturesNeverShow : Prop :=
  ∀ (latency n : Nat) (s : State) (c : Word32) (a b : Word64), s.busy = false →
    ∃ t u, edges latency n s = .next t ∧
      edges latency n { s with capCmd := c, capA := a, capB := b } = .next u ∧ t.outputs = u.outputs

/-! ## The edge protocol

What the input ports carry at the coming edges is the state's list `inputs` (the model's own field, log entry 3), and a
statement over every list is one over every behaviour of the host. -/

/-- The host's run of the machine is the run of edges at the implementation's LATENCY (R7). -/
def Obligations.MachineRunsEdgesAtItsLatency : Prop :=
  1 ≤ Config.latency ∧ ∀ (n : Nat) (s : State), Host.Core.run Sys2Proof.core n s = edges Config.latency n s

/-- R123, for every LATENCY: a command accepted at edge 1 shows its response, and RSP_VALID, at edge LATENCY and not
before, whatever the ports carry meanwhile short of a reset; the next edge that writes nothing clears RSP_VALID, and
the response stays until the next completion or reset. -/
def Obligations.ResponseIsWrittenAtEdgeLatency : Prop :=
  ∀ (latency : Nat) (s : State), 1 ≤ latency → s.busy = false → s.sample.cmdValid = true →
    NoReset (s.inputs.take latency) →
    (∀ k, 1 ≤ k → k < latency → ∃ t, edges latency k s = .next t ∧ t.response = s.response ∧ t.rspValid = false ∧
      t.busy = true ∧ t.cnt = latency - k) ∧
    ∃ t, edges latency latency s = .next t ∧
      some t.response = responseOf s.sample.cmd s.sample.opa s.sample.opb ∧ t.rspValid = true ∧ t.busy = false ∧
      t.cnt = 0 ∧
      ∀ m, 1 ≤ m → QuietInputs ((s.inputs.drop latency).take m) →
        ∃ u, edges latency (latency + m) s = .next u ∧ u.response = t.response ∧ u.rspValid = false

/-- R124: BUSY and CNT. At LATENCY = 1 BUSY is never set and an offered command completes at its accepting edge.
Above it the accepting edge sets BUSY and CNT = LATENCY - 1, each later edge counts down and takes nothing from the
ports, and the edge at which CNT would reach 0 writes the response and clears BUSY; from acceptance on, `cmd_ready`
is 0 until the LATENCY-th edge and 1 after it, so the next command can be accepted at edge LATENCY + 1. -/
def Obligations.BusyCountsDownToCompletion : Prop :=
  ∀ (latency : Nat) (s : State), s.sample.rst = false →
    (latency = 1 → s.busy = false → ∃ t, edge latency s = .next t ∧ t.busy = false ∧
      (s.sample.cmdValid = true →
        t.rspValid = true ∧ some t.response = responseOf s.sample.cmd s.sample.opa s.sample.opb)) ∧
    (1 < latency → s.busy = false → s.sample.cmdValid = true → ∃ t, edge latency s = .next t ∧ t.busy = true ∧
      t.cnt = latency - 1 ∧ t.capCmd = s.sample.cmd ∧ t.capA = s.sample.opa ∧ t.capB = s.sample.opb) ∧
    (s.busy = true → 1 < s.cnt → ∃ t, edge latency s = .next t ∧ t.busy = true ∧ t.cnt = s.cnt - 1 ∧
      t.response = s.response ∧ t.capCmd = s.capCmd ∧ t.capA = s.capA ∧ t.capB = s.capB) ∧
    (s.busy = true → s.cnt = 1 → ∃ t, edge latency s = .next t ∧ t.busy = false ∧ t.cnt = 0 ∧ t.rspValid = true ∧
      some t.response = responseOf s.capCmd s.capA s.capB ∧ t.capCmd = s.capCmd ∧ t.capA = s.capA ∧
      t.capB = s.capB) ∧
    (1 ≤ latency → s.busy = false → s.sample.cmdValid = true → NoReset (s.inputs.take latency) →
      ∀ k, 1 ≤ k → k ≤ latency → ∃ t, edges latency k s = .next t ∧ t.outputs.cmdReady = decide (k = latency))

/-- What an edge that accepts nothing finds on cmd, opa and opb has no effect (R26, R125); of a busy block, nor has
cmd_valid. -/
def Obligations.UnacceptedPortValuesHaveNoEffect : Prop :=
  ∀ (latency : Nat) (s : State) (x y : PortIn) (xs : List PortIn), x.rst = y.rst →
    (x.rst = true ∨ s.busy = true ∨ (x.cmdValid = false ∧ y.cmdValid = false)) →
    edge latency { s with inputs := x :: xs } = edge latency { s with inputs := y :: xs }

/-- LATENCY is at least 1 and is the LATENCY of every step. It is the number of edges from accepting a command to writing
its response, counting the accepting edge, and no value depends on it (R7), nor on what came before the command (R19):
the same command accepted by two idle blocks of any two latencies shows the same response, each at its own latency and
not before. -/
def Obligations.ResponseDoesNotDependOnLatency : Prop :=
  (1 ≤ Config.latency ∧ ∀ s : State, step s = edge Config.latency s) ∧
  ∀ (latency₁ latency₂ : Nat) (s₁ s₂ : State), 1 ≤ latency₁ → 1 ≤ latency₂ → s₁.busy = false → s₂.busy = false →
    s₁.sample.cmdValid = true → s₂.sample = s₁.sample →
    NoReset (s₁.inputs.take latency₁) → NoReset (s₂.inputs.take latency₂) →
    (∀ k, 1 ≤ k → k < latency₁ → ∃ t, edges latency₁ k s₁ = .next t ∧ t.rspValid = false ∧
      t.response = s₁.response) ∧
    ∃ t₁ t₂, edges latency₁ latency₁ s₁ = .next t₁ ∧ edges latency₂ latency₂ s₂ = .next t₂ ∧
      t₁.rspValid = true ∧ t₂.rspValid = true ∧ t₁.response = t₂.response

/-- R24: only a completing command writes the response registers and only reset clears them. A step is an edge at the
implementation's LATENCY, and at every LATENCY: a reset edge gives the reset values; the last edge of a busy block, and
at LATENCY = 1 the accepting edge of an idle one, write the response of the command in flight or just accepted, with
RSP_VALID; every other edge leaves the response and shows RSP_VALID = 0. A busy block with CNT = 0, which no run
reaches, completes too, by the model's choice (log entry 5), and that the capture registers hold the completed command
at LATENCY = 1 as well is log entry 12. -/
def Obligations.ResponseChangesOnlyAtCompletionOrReset : Prop :=
  (1 ≤ Config.latency ∧ ∀ s : State, step s = edge Config.latency s) ∧
  ∀ (latency : Nat) (s : State), 1 ≤ latency → ∃ t, edge latency s = .next t ∧
    if s.sample.rst = true then t.AtResetValues
    else if s.busy = true ∧ s.cnt ≤ 1 then
      t.rspValid = true ∧ some t.response = responseOf s.capCmd s.capA s.capB ∧
        some t.response = responseOf t.capCmd t.capA t.capB
    else if s.busy = false ∧ s.sample.cmdValid = true ∧ latency = 1 then
      t.rspValid = true ∧ some t.response = responseOf s.sample.cmd s.sample.opa s.sample.opb ∧
        some t.response = responseOf t.capCmd t.capA t.capB
    else t.rspValid = false ∧ t.response = s.response

/-- When the captured word decodes to a command and the edge is its last, the step is exec of that command, with
RSP_VALID set, BUSY and CNT cleared (R123, R124). That the edge spends one sample of `inputs` is the model's own choice,
log entry 3. -/
def Obligations.StepRunsDecodedCommand : Prop :=
  ∀ (s t : State) (i : Instr), s.sample.rst = false → s.busy = true → s.cnt = 1 → decode s.capCmd = .ok i →
    exec i { s with inputs := s.inputs.tail } = .next t →
    step s = .next { t with rspValid := true, busy := false, cnt := 0 }

/-! ## Commands in general -/

/-- Every command answers, and changes nothing but the response registers (R24). -/
def Obligations.CommandsChangeOnlyTheResponse : Prop :=
  ∀ (i : Instr) (s : State), ∃ t, exec i s = .next t ∧ SameOutsideResponse s t

/-- R18: every operation is total, with exactly one response: a result with STATUS = OK, or an error status with
zeroed results. No edge hangs. -/
def Obligations.EveryCommandGivesOneResponse : Prop :=
  (∀ s : State, ∃ t, step s = .next t) ∧
  ∀ (c : Word32) (a b : Word64), ∃ ρ, responseOf c a b = some ρ ∧
    (ρ.status = 1 ∨
      ((ρ.status = 2 ∨ ρ.status = 3 ∨ ρ.status = 4 ∨ ρ.status = 5) ∧ ρ.precOut = 0 ∧ ∀ k : Fin 8, ρ.r[k] = 0))

/-- R19 and R122: from any state at all, the completing edge writes exactly `response(CMD, A, B)` of the captured
command. -/
def Obligations.ResponseIsAFunctionOfTheCommand : Prop :=
  ∀ s : State, ∃ t, completionEdge s = .next t ∧ some t.response = responseOf s.capCmd s.capA s.capB

/-- R103: an error writes its status, one of the four error codes, with PREC_OUT = 0 and R0 to R7 = 0; the block is
ready again, and no later command is affected. -/
def Obligations.ErrorsWriteZeroes : Prop :=
  ∀ s t : State, completionEdge s = .next t → t.status ≠ 1 →
    (t.status = 2 ∨ t.status = 3 ∨ t.status = 4 ∨ t.status = 5) ∧ t.precOut = 0 ∧ (∀ k : Fin 8, t.r[k] = 0) ∧
    t.outputs.cmdReady = true ∧
    ∀ x : PortIn, ∃ u, completionEdge (t.capture x) = .next u ∧ some u.response = responseOf x.cmd x.opa x.opb

/-- R102: the statuses that each operation can report, exactly. -/
def Obligations.StatusesEachOperationReports : Prop :=
  ∀ (op : BitVec 4) (st : BitVec 3),
    (∃ c a b ρ, c.extractLsb' 0 4 = op ∧ responseOf c a b = some ρ ∧ ρ.status = st) ↔
      st = 5 ∨
      (1 ≤ op.toNat ∧ op.toNat ≤ 0xA ∧ st = 1) ∨
      (5 ≤ op.toNat ∧ op.toNat ≤ 0xA ∧ st = 2) ∨
      (5 ≤ op.toNat ∧ op.toNat ≤ 6 ∧ st = 3) ∨
      (7 ≤ op.toNat ∧ op.toNat ≤ 0xA ∧ st = 4)

/-- R104: the first failing check decides the status. -/
def Obligations.FirstFailingCheckDecides : Prop :=
  ∀ (c : Word32) (a b : Word64), ∃ ρ, responseOf c a b = some ρ ∧
    let op := (c.extractLsb' 0 4).toNat
    let p := (c.extractLsb' 4 6).toNat
    let badCoordinate := (¬∃ lat, IsLatitude a lat) ∨ ¬∃ lng, IsLongitude b lng
    let badPrecision := p < 1 ∨ 32 < p
    let badCode := ¬WellFormedCode a p
    ((¬∃ i, decode c = .ok i) → ρ.status = 5) ∧
    ((∃ i, decode c = .ok i) →
      if op ≤ 4 then ρ.status = 1
      else if op ≤ 6 then
        (badCoordinate → ρ.status = 3) ∧ (¬badCoordinate → badPrecision → ρ.status = 2) ∧
          (¬badCoordinate → ¬badPrecision → ρ.status = 1)
      else if op ≤ 9 then
        (badPrecision → ρ.status = 2) ∧ (¬badPrecision → badCode → ρ.status = 4) ∧
          (¬badPrecision → ¬badCode → ρ.status = 1)
      else
        (p < 1 ∨ 31 < p → ρ.status = 2) ∧ (1 ≤ p → p ≤ 31 → badCode → ρ.status = 4) ∧
          (1 ≤ p → p ≤ 31 → ¬badCode → ρ.status = 1))

/-- R22: PREC_OUT after each kind of completion and after reset. -/
def Obligations.PrecOutOfEachCompletion : Prop :=
  (∀ (c : Word32) (a b : Word64) (ρ : Response), responseOf c a b = some ρ →
    let op := (c.extractLsb' 0 4).toNat
    (op ≤ 4 → ρ.precOut = 0) ∧ (ρ.status ≠ 1 → ρ.precOut = 0) ∧
    (5 ≤ op → ρ.status = 1 → 1 ≤ ρ.precOut.toNat ∧ ρ.precOut.toNat ≤ 32)) ∧
  (∀ (latency : Nat) (s : State), s.sample.rst = true → ∃ t, edge latency s = .next t ∧ t.precOut = 0)

/-! ## Invariant -/

/-- The reset state meets the invariant. -/
def Obligations.ResetMeetsInvariant : Prop := State.reset.Inv

/-- One reset edge establishes the invariant from any state whatever, such as the unspecified one of power-up
(R118, R29). -/
def Obligations.ResetEdgeEstablishesInvariant : Prop :=
  ∀ s : State, s.sample.rst = true → ∃ t, step s = .next t ∧ t.Inv

/-- Every step keeps the invariant: STATUS never holds 6 or 7 and PREC_OUT never 33 to 63 (R29), no stale result
beside an error (R23), RSP_VALID only on a written response and never with BUSY (R25), and CNT counts within LATENCY
exactly while BUSY (R124). -/
def Obligations.StepKeepsInvariant : Prop :=
  ∀ s : State, s.Inv → ∃ t, step s = .next t ∧ t.Inv

/-! ## The bit interleaver -/

/-- R68 with R64: SPREAD is the word 0x00000001; bit i of A[31:0] goes to bit 2i of R0, and the odd bits are 0. -/
def Obligations.SpreadResult : Prop :=
  (∀ w : Word32, decode w = .ok .spread ↔ w = 0x00000001) ∧
  ∀ s : State, ∃ t v, exec .spread s = .next t ∧ t.shows 1 0 [v] ∧ SameOutsideResponse s t ∧
    ∀ i, i < 32 → v.getLsbD (2 * i) = s.capA.getLsbD i ∧ v.getLsbD (2 * i + 1) = false

/-- R69 with R66: SQUASH is the word 0x00000002; bit i of R0 is bit 2i of A, and R0[63:32] is 0; SQUASH of SPREAD's
result gives SPREAD's operand back. -/
def Obligations.SquashResult : Prop :=
  (∀ w : Word32, decode w = .ok .squash ↔ w = 0x00000002) ∧
  (∀ s : State, ∃ t v, exec .squash s = .next t ∧ t.shows 1 0 [v] ∧ SameOutsideResponse s t ∧
    ∀ i, v.getLsbD i = (decide (i < 32) && s.capA.getLsbD (2 * i))) ∧
  ∀ s : State, ∃ t u, exec .spread s = .next t ∧ exec .squash { t with capA := t.r[0] } = .next u ∧
    u.r[0] = (s.capA.extractLsb' 0 32).setWidth 64

/-- R70: INTERLEAVE is the word 0x00000003; A[31:0] goes to the even bits of R0 and B[31:0] to the odd bits. -/
def Obligations.InterleaveResult : Prop :=
  (∀ w : Word32, decode w = .ok .interleave ↔ w = 0x00000003) ∧
  ∀ s : State, ∃ t v, exec .interleave s = .next t ∧ t.shows 1 0 [v] ∧ SameOutsideResponse s t ∧
    (∀ i, i < 32 → v.getLsbD (2 * i) = s.capA.getLsbD i ∧ v.getLsbD (2 * i + 1) = s.capB.getLsbD i) ∧
    ∀ p, p ≤ 32 → (s.capA.extractLsb' 0 32).toNat < 2 ^ p → (s.capB.extractLsb' 0 32).toNat < 2 ^ p →
      v.toNat < 2 ^ (2 * p)

/-- R71: DEINTERLEAVE is the word 0x00000004; R0 is the odd bits of A (the longitude index), R1 the even bits (the
latitude index). -/
def Obligations.DeinterleaveResult : Prop :=
  (∀ w : Word32, decode w = .ok .deinterleave ↔ w = 0x00000004) ∧
  ∀ s : State, ∃ t ln la, exec .deinterleave s = .next t ∧ t.shows 1 0 [ln, la] ∧ SameOutsideResponse s t ∧
    ∀ i, ln.getLsbD i = (decide (i < 32) && s.capA.getLsbD (2 * i + 1)) ∧
      la.getLsbD i = (decide (i < 32) && s.capA.getLsbD (2 * i))

/-- R65: the five shift-and-mask rounds compute the bit map of R64. -/
def Obligations.SpreadNetworkComputesTheBitMap : Prop :=
  ∀ x : AxisWord, spreadNetwork x = spread x ∧
    ∀ i, i < 32 → (spreadNetwork x).getLsbD (2 * i) = x.getLsbD i ∧ (spreadNetwork x).getLsbD (2 * i + 1) = false

/-- R67: the initial mask and the five inverse rounds compute the bit map of R66. -/
def Obligations.SquashNetworkComputesTheBitMap : Prop :=
  ∀ c : Word64, squashNetwork c = squash c ∧ ∀ i, i < 32 → (squashNetwork c).getLsbD i = c.getLsbD (2 * i)

/-- R72: DEINTERLEAVE of INTERLEAVE's code gives R0 = B's index and R1 = A's index, and INTERLEAVE of DEINTERLEAVE's
(R1, R0) gives the code back. -/
def Obligations.InterleaveInverse : Prop :=
  (∀ s : State, ∃ t u, exec .interleave s = .next t ∧ exec .deinterleave { t with capA := t.r[0] } = .next u ∧
    u.r[0] = (s.capB.extractLsb' 0 32).setWidth 64 ∧ u.r[1] = (s.capA.extractLsb' 0 32).setWidth 64) ∧
  ∀ s : State, ∃ t u, exec .deinterleave s = .next t ∧
    exec .interleave { t with capA := t.r[1], capB := t.r[0] } = .next u ∧ u.r[0] = s.capA

/-! ## Binary64 -/

/-- R11: what a word denotes, from its sign, exponent and fraction fields. -/
def Obligations.BinarySixtyFourLayout : Prop :=
  ∀ w : Word64,
    let s : ℚ := if w.getLsbD 63 then -1 else 1
    let e := (w.extractLsb' 52 11).toNat
    let f := (w.extractLsb' 0 52).toNat
    (e = 0x7FF → f ≠ 0 → f64val w = .nan) ∧
    (e = 0x7FF → f = 0 → f64val w = .inf (w.getLsbD 63)) ∧
    (0 < e → e < 0x7FF → f64val w = .finite (s * (2 ^ 52 + (f : ℚ)) * (2 : ℚ) ^ ((e : ℤ) - 1075))) ∧
    (e = 0 → f64val w = .finite (s * (f : ℚ) * (2 : ℚ) ^ (-1074 : ℤ)))

/-- `f64word` writes the word that has exactly this value: it undoes `f64val` on every finite word but -0.0, and 0 is
+0.0 (R10). -/
def Obligations.WordOfAValueIsExact : Prop :=
  f64word 0 = 0 ∧ ∀ (w : Word64) (v : ℚ), f64val w = .finite v → v ≠ 0 → f64word v = w

/-- R84: every cell bound is exactly a binary64 value, so writing it does not round, and no bound is written
as -0.0, so a zero bound is +0.0 (R82). -/
def Obligations.CellBoundsAreExact : Prop :=
  ∀ p i : Nat, p ≤ 32 → i ≤ 2 ^ p →
    f64val (f64word (-90 + (i : ℚ) * 180 / 2 ^ p)) = .finite (-90 + (i : ℚ) * 180 / 2 ^ p) ∧
    f64val (f64word (-180 + (i : ℚ) * 360 / 2 ^ p)) = .finite (-180 + (i : ℚ) * 360 / 2 ^ p) ∧
    f64word (-90 + (i : ℚ) * 180 / 2 ^ p) ≠ 0x8000000000000000 ∧
    f64word (-180 + (i : ℚ) * 360 / 2 ^ p) ≠ 0x8000000000000000

/-! ## The scaler -/

/-- R74: a coordinate pair is accepted exactly when both values lie in their half-open ranges; every NaN and both
infinities fail, both zeros are valid with value 0, and subnormals are valid. -/
def Obligations.CoordinateValidity : Prop :=
  (∀ (s t : State) (p : Nat), 1 ≤ p → p ≤ 32 → exec (.scale p) s = .next t →
    ((t.status = 1 ↔ (∃ lat, IsLatitude s.capA lat) ∧ ∃ lng, IsLongitude s.capB lng) ∧
      (t.status = 1 ∨ t.status = 3))) ∧
  (∀ w : Word64, w.extractLsb' 52 11 = 0x7FF → ∀ v, ¬IsLatitude w v ∧ ¬IsLongitude w v) ∧
  IsLatitude 0x0000000000000000 0 ∧ IsLatitude 0x8000000000000000 0 ∧
  IsLongitude 0x0000000000000000 0 ∧ IsLongitude 0x8000000000000000 0 ∧
  (∀ w : Word64, w.extractLsb' 52 11 = 0 → ∃ v, IsLatitude w v ∧ IsLongitude w v)

/-- R77 with R73 and R76: SCALE's word, its two errors in their order, and its two indices
`floor((v - MIN) * 2^p / RANGE)`, each below 2^p, the longitude's in R0 and the latitude's in R1. -/
def Obligations.ScaleResult : Prop :=
  (∀ (w : Word32) (p : Nat), decode w = .ok (.scale p) ↔ p < 64 ∧ w = 0x00000005 ||| (BitVec.ofNat 32 p <<< 4)) ∧
  (∀ (s : State) (p : Nat), ((¬∃ lat, IsLatitude s.capA lat) ∨ ¬∃ lng, IsLongitude s.capB lng) →
    ∃ t, exec (.scale p) s = .next t ∧ t.shows 3 0 [] ∧ SameOutsideResponse s t) ∧
  ∀ (s : State) (p : Nat) (lat lng : ℚ), IsLatitude s.capA lat → IsLongitude s.capB lng →
    (p < 1 ∨ 32 < p → ∃ t, exec (.scale p) s = .next t ∧ t.shows 2 0 [] ∧ SameOutsideResponse s t) ∧
    (1 ≤ p → p ≤ 32 → ∃ t ln la, exec (.scale p) s = .next t ∧ t.shows 1 p [ln, la] ∧ SameOutsideResponse s t ∧
      ln.toNat = ⌊(lng - (-180)) * 2 ^ p / 360⌋₊ ∧ la.toNat = ⌊(lat - (-90)) * 2 ^ p / 180⌋₊ ∧
      ln.toNat < 2 ^ p ∧ la.toNat < 2 ^ p)

/-- R78 with R73 and R76: ENCODE's word, its two errors in their order, and its code, well formed at p, whose odd
bits are the longitude index and whose even bits are the latitude index. -/
def Obligations.EncodeResult : Prop :=
  (∀ (w : Word32) (p : Nat), decode w = .ok (.encode p) ↔ p < 64 ∧ w = 0x00000006 ||| (BitVec.ofNat 32 p <<< 4)) ∧
  (∀ (s : State) (p : Nat), ((¬∃ lat, IsLatitude s.capA lat) ∨ ¬∃ lng, IsLongitude s.capB lng) →
    ∃ t, exec (.encode p) s = .next t ∧ t.shows 3 0 [] ∧ SameOutsideResponse s t) ∧
  ∀ (s : State) (p : Nat) (lat lng : ℚ), IsLatitude s.capA lat → IsLongitude s.capB lng →
    (p < 1 ∨ 32 < p → ∃ t, exec (.encode p) s = .next t ∧ t.shows 2 0 [] ∧ SameOutsideResponse s t) ∧
    (1 ≤ p → p ≤ 32 → ∃ t v, exec (.encode p) s = .next t ∧ t.shows 1 p [v] ∧ SameOutsideResponse s t ∧
      WellFormedCode v p ∧
      ∀ i, i < 32 →
        v.getLsbD (2 * i) = (⌊(lat - (-90)) * 2 ^ p / 180⌋₊).testBit i ∧
        v.getLsbD (2 * i + 1) = (⌊(lng - (-180)) * 2 ^ p / 360⌋₊).testBit i)

/-- SCALE's R0 and R1 equal DEINTERLEAVE's R0 and R1 on ENCODE's code (R77). -/
def Obligations.ScaleAgreesWithEncode : Prop :=
  ∀ (s : State) (p : Nat) (lat lng : ℚ), IsLatitude s.capA lat → IsLongitude s.capB lng → 1 ≤ p → p ≤ 32 →
    ∃ t u v, exec (.scale p) s = .next t ∧ exec (.encode p) s = .next u ∧
      exec .deinterleave { u with capA := u.r[0] } = .next v ∧ t.status = 1 ∧ u.status = 1 ∧ v.r = t.r

/-- R79: a value is in cell i exactly when its index is i; a value on a boundary is in the upper cell. -/
def Obligations.HalfOpenBoundary : Prop :=
  ∀ (p i : Nat) (v : ℚ), 1 ≤ p → p ≤ 32 →
    (-90 ≤ v → v < 90 → (axisIndex v (-90) 180 p = i ↔
      -90 + (i : ℚ) * 180 / 2 ^ p ≤ v ∧ v < -90 + ((i : ℚ) + 1) * 180 / 2 ^ p)) ∧
    (-180 ≤ v → v < 180 → (axisIndex v (-180) 360 p = i ↔
      -180 + (i : ℚ) * 360 / 2 ^ p ≤ v ∧ v < -180 + ((i : ℚ) + 1) * 360 / 2 ^ p))

/-- R83 with R81 and R82: DECODE's word, its two errors in their order, and the exact values of its four bounds,
none of them written as -0.0. -/
def Obligations.DecodeResult : Prop :=
  (∀ (w : Word32) (p : Nat), decode w = .ok (.decode p) ↔ p < 64 ∧ w = 0x00000007 ||| (BitVec.ofNat 32 p <<< 4)) ∧
  ∀ (s : State) (p : Nat),
    (p < 1 ∨ 32 < p → ∃ t, exec (.decode p) s = .next t ∧ t.shows 2 0 [] ∧ SameOutsideResponse s t) ∧
    (1 ≤ p → p ≤ 32 → ¬WellFormedCode s.capA p →
      ∃ t, exec (.decode p) s = .next t ∧ t.shows 4 0 [] ∧ SameOutsideResponse s t) ∧
    (1 ≤ p → p ≤ 32 → WellFormedCode s.capA p →
      ∃ t w₀ w₁ w₂ w₃, exec (.decode p) s = .next t ∧ t.shows 1 p [w₀, w₁, w₂, w₃] ∧ SameOutsideResponse s t ∧
        let la : ℚ := ((squash s.capA).toNat : ℚ)
        let ln : ℚ := ((squash (s.capA >>> 1)).toNat : ℚ)
        f64val w₀ = .finite (-90 + la * 180 / 2 ^ p) ∧ f64val w₁ = .finite (-90 + (la + 1) * 180 / 2 ^ p) ∧
        f64val w₂ = .finite (-180 + ln * 360 / 2 ^ p) ∧ f64val w₃ = .finite (-180 + (ln + 1) * 360 / 2 ^ p) ∧
        w₀ ≠ 0x8000000000000000 ∧ w₁ ≠ 0x8000000000000000 ∧ w₂ ≠ 0x8000000000000000 ∧ w₃ ≠ 0x8000000000000000)

/-- R85: the cell that DECODE gives for ENCODE's code contains the coordinate. -/
def Obligations.RoundTripContainment : Prop :=
  ∀ (s : State) (p : Nat) (lat lng : ℚ), IsLatitude s.capA lat → IsLongitude s.capB lng → 1 ≤ p → p ≤ 32 →
    ∃ latLo latHi lngLo lngHi, EncodedCell s p latLo latHi lngLo lngHi ∧
      latLo ≤ lat ∧ lat < latHi ∧ lngLo ≤ lng ∧ lng < lngHi

/-- R86: at p + 1 the cell of the same coordinate is exactly half as wide on each axis; the widths are 180 / 2^p and
360 / 2^p. -/
def Obligations.CellShrink : Prop :=
  ∀ (s : State) (p : Nat) (lat lng : ℚ), IsLatitude s.capA lat → IsLongitude s.capB lng → 1 ≤ p → p ≤ 31 →
    ∃ a b c d a' b' c' d', EncodedCell s p a b c d ∧ EncodedCell s (p + 1) a' b' c' d' ∧
      b' - a' = (b - a) / 2 ∧ d' - c' = (d - c) / 2 ∧
      b - a = 180 / 2 ^ p ∧ d - c = 360 / 2 ^ p

/-! ## The neighbour calculator -/

/-- R93 with R87 and R88: NEIGHBOR's word, its two errors in their order, and its result: the code, well formed at p, whose
two indices are moved by the direction modulo 2^p. -/
def Obligations.NeighborResult : Prop :=
  (∀ (w : Word32) (p : Nat) (d : Direction), decode w = .ok (.neighbor p d) ↔
    p < 64 ∧ w = 0x00000008 ||| (BitVec.ofNat 32 p <<< 4) ||| (d.code.setWidth 32 <<< 10)) ∧
  ∀ (s : State) (p : Nat) (d : Direction),
    (p < 1 ∨ 32 < p → ∃ t, exec (.neighbor p d) s = .next t ∧ t.shows 2 0 [] ∧ SameOutsideResponse s t) ∧
    (1 ≤ p → p ≤ 32 → ¬WellFormedCode s.capA p →
      ∃ t, exec (.neighbor p d) s = .next t ∧ t.shows 4 0 [] ∧ SameOutsideResponse s t) ∧
    (1 ≤ p → p ≤ 32 → WellFormedCode s.capA p →
      ∃ t v, exec (.neighbor p d) s = .next t ∧ t.shows 1 p [v] ∧ SameOutsideResponse s t ∧ WellFormedCode v p ∧
        ∀ move ∈ directionMoves, move.1 = d →
          ((squash v).toNat : ℤ) = ((squash s.capA).toNat + move.2.1) % 2 ^ p ∧
          ((squash (v >>> 1)).toNat : ℤ) = ((squash (s.capA >>> 1)).toNat + move.2.2) % 2 ^ p)

/-- R94: NEIGHBORS' word, its two errors in their order, and its eight results: direction code d's neighbour in R[d],
each equal to NEIGHBOR's R0. -/
def Obligations.NeighborsResult : Prop :=
  (∀ (w : Word32) (p : Nat), decode w = .ok (.neighbors p) ↔
    p < 64 ∧ w = 0x00000009 ||| (BitVec.ofNat 32 p <<< 4)) ∧
  ∀ (s : State) (p : Nat),
    (p < 1 ∨ 32 < p → ∃ t, exec (.neighbors p) s = .next t ∧ t.shows 2 0 [] ∧ SameOutsideResponse s t) ∧
    (1 ≤ p → p ≤ 32 → ¬WellFormedCode s.capA p →
      ∃ t, exec (.neighbors p) s = .next t ∧ t.shows 4 0 [] ∧ SameOutsideResponse s t) ∧
    (1 ≤ p → p ≤ 32 → WellFormedCode s.capA p → ∃ (t : State) (v : Direction → Word64), exec (.neighbors p) s = .next t ∧
      t.shows 1 p [v .north, v .east, v .south, v .west, v .northEast, v .southEast, v .southWest, v .northWest] ∧
      SameOutsideResponse s t ∧
      ∀ move ∈ directionMoves,
        (∃ u, exec (.neighbor p move.1) s = .next u ∧ u.r[0] = v move.1) ∧ WellFormedCode (v move.1) p ∧
        ((squash (v move.1)).toNat : ℤ) = ((squash s.capA).toNat + move.2.1) % 2 ^ p ∧
        ((squash (v move.1 >>> 1)).toNat : ℤ) = ((squash (s.capA >>> 1)).toNat + move.2.2) % 2 ^ p)

/-- R89, R90 and R91: the bit-parallel datapath, in either order of its two moves, equals the index arithmetic of R88
on every code that is well formed at p. A move of 0 changes nothing, and each move keeps the other axis's bits. -/
def Obligations.DatapathEqualsIndexArithmetic : Prop :=
  ∀ (c : Word64) (p : Nat), 1 ≤ p → p ≤ 32 → WellFormedCode c p →
    (∀ move ∈ directionMoves,
      moveLng (moveLat c p move.2.1) p move.2.2 = neighbor c p move.1 ∧
      moveLat (moveLng c p move.2.2) p move.2.1 = neighbor c p move.1) ∧
    moveLat c p 0 = c ∧ moveLng c p 0 = c ∧
    ∀ δ ∈ ([1, -1] : List ℤ), moveLat c p δ &&& 0xAAAAAAAAAAAAAAAA = c &&& 0xAAAAAAAAAAAAAAAA ∧
      moveLng c p δ &&& 0x5555555555555555 = c &&& 0x5555555555555555

/-- R95: opposite moves undo each other, also at the wrap edge; a move on one axis leaves the other index; every
result is well formed; 2^p moves in one direction return to the start. -/
def Obligations.NeighborLaws : Prop :=
  ∀ (c : Word64) (p : Nat), 1 ≤ p → p ≤ 32 → WellFormedCode c p →
    (∀ pair ∈ [(Direction.east, Direction.west), (.north, .south), (.northEast, .southWest),
        (.southEast, .northWest)],
      neighbor (neighbor c p pair.1) p pair.2 = c ∧ neighbor (neighbor c p pair.2) p pair.1 = c) ∧
    (∀ d ∈ [Direction.north, .south], squash (neighbor c p d >>> 1) = squash (c >>> 1)) ∧
    (∀ d ∈ [Direction.east, .west], squash (neighbor c p d) = squash c) ∧
    (∀ d, WellFormedCode (neighbor c p d) p) ∧
    (∀ d, (fun x => neighbor x p d)^[2 ^ p] c = c)

/-! ## Subdivision -/

/-- R99 with R98: CHILD's word, its two errors in their order, and its result `(A << 2) | q`, bit for bit, at
PREC_OUT = p + 1. -/
def Obligations.ChildResult : Prop :=
  (∀ (w : Word32) (p : Nat) (q : Quadrant), decode w = .ok (.child p q) ↔
    p < 64 ∧ w = 0x0000000A ||| (BitVec.ofNat 32 p <<< 4) ||| (q.code.setWidth 32 <<< 13)) ∧
  ∀ (s : State) (p : Nat) (q : Quadrant),
    (p < 1 ∨ 31 < p → ∃ t, exec (.child p q) s = .next t ∧ t.shows 2 0 [] ∧ SameOutsideResponse s t) ∧
    (1 ≤ p → p ≤ 31 → ¬WellFormedCode s.capA p →
      ∃ t, exec (.child p q) s = .next t ∧ t.shows 4 0 [] ∧ SameOutsideResponse s t) ∧
    (1 ≤ p → p ≤ 31 → WellFormedCode s.capA p →
      ∃ t v, exec (.child p q) s = .next t ∧ t.shows 1 (p + 1) [v] ∧ SameOutsideResponse s t ∧
        v.toNat = 4 * s.capA.toNat + q.code.toNat ∧ WellFormedCode v (p + 1))

/-- R97: the child function shifts the code and puts the selector below it; the child is well formed at p + 1, and
its indices are twice the parent's plus the selector's bits. -/
def Obligations.ChildIndices : Prop :=
  ∀ (c : Word64) (p : Nat) (q : BitVec 2), 1 ≤ p → p ≤ 31 → WellFormedCode c p →
    child c q = (c <<< 2) ||| q.setWidth 64 ∧ WellFormedCode (child c q) (p + 1) ∧
    (squash (child c q)).toNat = 2 * (squash c).toNat + (q.getLsbD 0).toNat ∧
    (squash (child c q >>> 1)).toNat = 2 * (squash (c >>> 1)).toNat + (q.getLsbD 1).toNat

/-- R100: the four children's cells at p + 1 tile the parent's cell at p: the selector's bit 0 picks the lower or the
upper half of the latitude range and its bit 1 that of the longitude range, on the output words themselves. -/
def Obligations.ChildrenTileTheParent : Prop :=
  ∀ (s : State) (p : Nat), 1 ≤ p → p ≤ 31 → WellFormedCode s.capA p →
    ∃ t latLo latHi lngLo lngHi, exec (.decode p) s = .next t ∧ t.status = 1 ∧
      f64val t.r[0] = .finite latLo ∧ f64val t.r[1] = .finite latHi ∧
      f64val t.r[2] = .finite lngLo ∧ f64val t.r[3] = .finite lngHi ∧ latLo < latHi ∧ lngLo < lngHi ∧
      ∀ q : Quadrant, ∃ c u, exec (.child p q) s = .next c ∧
        exec (.decode (p + 1)) { c with capA := c.r[0] } = .next u ∧ u.status = 1 ∧
        f64val u.r[0] = .finite (if q.code.getLsbD 0 then (latLo + latHi) / 2 else latLo) ∧
        f64val u.r[1] = .finite (if q.code.getLsbD 0 then latHi else (latLo + latHi) / 2) ∧
        f64val u.r[2] = .finite (if q.code.getLsbD 1 then (lngLo + lngHi) / 2 else lngLo) ∧
        f64val u.r[3] = .finite (if q.code.getLsbD 1 then lngHi else (lngLo + lngHi) / 2)

/-! ## The model's list of samples -/

/-- Every edge answers and spends one sample of the model's own list `inputs`, the model's choice of log entry 3: after
n edges, whatever they do, the list has lost its first n samples and nothing else. -/
def Obligations.EachEdgeSpendsOneSample : Prop :=
  ∀ (latency n : Nat) (s : State), ∃ t, edges latency n s = .next t ∧ t.inputs = s.inputs.drop n
end

