-- ==== Sys2Proof/Laws/State.lean ====
section
/-! SUPPORT. One lemma for each field of the state under each update of it, so that no later proof unfolds a
record update. -/

namespace Sys2Proof.Machine.State

variable (s : State)

/-! ## writeResponse -/

@[simp] theorem writeResponse_status (ρ : Response) : (s.writeResponse ρ).status = ρ.status := rfl
@[simp] theorem writeResponse_precOut (ρ : Response) : (s.writeResponse ρ).precOut = ρ.precOut := rfl
@[simp] theorem writeResponse_r (ρ : Response) : (s.writeResponse ρ).r = ρ.r := rfl
@[simp] theorem writeResponse_rspValid (ρ : Response) : (s.writeResponse ρ).rspValid = s.rspValid := rfl
@[simp] theorem writeResponse_busy (ρ : Response) : (s.writeResponse ρ).busy = s.busy := rfl
@[simp] theorem writeResponse_cnt (ρ : Response) : (s.writeResponse ρ).cnt = s.cnt := rfl
@[simp] theorem writeResponse_capCmd (ρ : Response) : (s.writeResponse ρ).capCmd = s.capCmd := rfl
@[simp] theorem writeResponse_capA (ρ : Response) : (s.writeResponse ρ).capA = s.capA := rfl
@[simp] theorem writeResponse_capB (ρ : Response) : (s.writeResponse ρ).capB = s.capB := rfl
@[simp] theorem writeResponse_inputs (ρ : Response) : (s.writeResponse ρ).inputs = s.inputs := rfl
@[simp] theorem writeResponse_freeCount (ρ : Response) : (s.writeResponse ρ).freeCount = s.freeCount := rfl

/-! ## advance -/

@[simp] theorem advance_status : (s.advance).status = s.status := rfl
@[simp] theorem advance_precOut : (s.advance).precOut = s.precOut := rfl
@[simp] theorem advance_r : (s.advance).r = s.r := rfl
@[simp] theorem advance_rspValid : (s.advance).rspValid = s.rspValid := rfl
@[simp] theorem advance_busy : (s.advance).busy = s.busy := rfl
@[simp] theorem advance_cnt : (s.advance).cnt = s.cnt := rfl
@[simp] theorem advance_capCmd : (s.advance).capCmd = s.capCmd := rfl
@[simp] theorem advance_capA : (s.advance).capA = s.capA := rfl
@[simp] theorem advance_capB : (s.advance).capB = s.capB := rfl
@[simp] theorem advance_inputs : (s.advance).inputs = s.inputs.tail := rfl
@[simp] theorem advance_freeCount : (s.advance).freeCount = s.freeCount := rfl

/-! ## resetEdge -/

@[simp] theorem resetEdge_status : (s.resetEdge).status = 0 := rfl
@[simp] theorem resetEdge_precOut : (s.resetEdge).precOut = 0 := rfl
@[simp] theorem resetEdge_r : (s.resetEdge).r = resultRegs [] := rfl
@[simp] theorem resetEdge_rspValid : (s.resetEdge).rspValid = false := rfl
@[simp] theorem resetEdge_busy : (s.resetEdge).busy = false := rfl
@[simp] theorem resetEdge_cnt : (s.resetEdge).cnt = 0 := rfl
@[simp] theorem resetEdge_capCmd : (s.resetEdge).capCmd = Config.freeCapCmd s.freeCount := rfl
@[simp] theorem resetEdge_capA : (s.resetEdge).capA = Config.freeCapA s.freeCount := rfl
@[simp] theorem resetEdge_capB : (s.resetEdge).capB = Config.freeCapB s.freeCount := rfl
@[simp] theorem resetEdge_inputs : (s.resetEdge).inputs = s.inputs := rfl
@[simp] theorem resetEdge_freeCount : (s.resetEdge).freeCount = s.freeCount + 1 := rfl

/-! ## capture -/

@[simp] theorem capture_status (x : PortIn) : (s.capture x).status = s.status := rfl
@[simp] theorem capture_precOut (x : PortIn) : (s.capture x).precOut = s.precOut := rfl
@[simp] theorem capture_r (x : PortIn) : (s.capture x).r = s.r := rfl
@[simp] theorem capture_rspValid (x : PortIn) : (s.capture x).rspValid = s.rspValid := rfl
@[simp] theorem capture_busy (x : PortIn) : (s.capture x).busy = s.busy := rfl
@[simp] theorem capture_cnt (x : PortIn) : (s.capture x).cnt = s.cnt := rfl
@[simp] theorem capture_capCmd (x : PortIn) : (s.capture x).capCmd = x.cmd := rfl
@[simp] theorem capture_capA (x : PortIn) : (s.capture x).capA = x.opa := rfl
@[simp] theorem capture_capB (x : PortIn) : (s.capture x).capB = x.opb := rfl
@[simp] theorem capture_inputs (x : PortIn) : (s.capture x).inputs = s.inputs := rfl
@[simp] theorem capture_freeCount (x : PortIn) : (s.capture x).freeCount = s.freeCount := rfl

/-! ## beginBusy -/

@[simp] theorem beginBusy_status (latency : Nat) : (s.beginBusy latency).status = s.status := rfl
@[simp] theorem beginBusy_precOut (latency : Nat) : (s.beginBusy latency).precOut = s.precOut := rfl
@[simp] theorem beginBusy_r (latency : Nat) : (s.beginBusy latency).r = s.r := rfl
@[simp] theorem beginBusy_rspValid (latency : Nat) : (s.beginBusy latency).rspValid = false := rfl
@[simp] theorem beginBusy_busy (latency : Nat) : (s.beginBusy latency).busy = true := rfl
@[simp] theorem beginBusy_cnt (latency : Nat) : (s.beginBusy latency).cnt = latency - 1 := rfl
@[simp] theorem beginBusy_capCmd (latency : Nat) : (s.beginBusy latency).capCmd = s.capCmd := rfl
@[simp] theorem beginBusy_capA (latency : Nat) : (s.beginBusy latency).capA = s.capA := rfl
@[simp] theorem beginBusy_capB (latency : Nat) : (s.beginBusy latency).capB = s.capB := rfl
@[simp] theorem beginBusy_inputs (latency : Nat) : (s.beginBusy latency).inputs = s.inputs := rfl
@[simp] theorem beginBusy_freeCount (latency : Nat) : (s.beginBusy latency).freeCount = s.freeCount := rfl

/-! ## countDown -/

@[simp] theorem countDown_status : (s.countDown).status = s.status := rfl
@[simp] theorem countDown_precOut : (s.countDown).precOut = s.precOut := rfl
@[simp] theorem countDown_r : (s.countDown).r = s.r := rfl
@[simp] theorem countDown_rspValid : (s.countDown).rspValid = false := rfl
@[simp] theorem countDown_busy : (s.countDown).busy = s.busy := rfl
@[simp] theorem countDown_cnt : (s.countDown).cnt = s.cnt - 1 := rfl
@[simp] theorem countDown_capCmd : (s.countDown).capCmd = s.capCmd := rfl
@[simp] theorem countDown_capA : (s.countDown).capA = s.capA := rfl
@[simp] theorem countDown_capB : (s.countDown).capB = s.capB := rfl
@[simp] theorem countDown_inputs : (s.countDown).inputs = s.inputs := rfl
@[simp] theorem countDown_freeCount : (s.countDown).freeCount = s.freeCount := rfl

/-! ## finish -/

@[simp] theorem finish_status : (s.finish).status = s.status := rfl
@[simp] theorem finish_precOut : (s.finish).precOut = s.precOut := rfl
@[simp] theorem finish_r : (s.finish).r = s.r := rfl
@[simp] theorem finish_rspValid : (s.finish).rspValid = true := rfl
@[simp] theorem finish_busy : (s.finish).busy = false := rfl
@[simp] theorem finish_cnt : (s.finish).cnt = 0 := rfl
@[simp] theorem finish_capCmd : (s.finish).capCmd = s.capCmd := rfl
@[simp] theorem finish_capA : (s.finish).capA = s.capA := rfl
@[simp] theorem finish_capB : (s.finish).capB = s.capB := rfl
@[simp] theorem finish_inputs : (s.finish).inputs = s.inputs := rfl
@[simp] theorem finish_freeCount : (s.finish).freeCount = s.freeCount := rfl

/-! ## hold -/

@[simp] theorem hold_status : (s.hold).status = s.status := rfl
@[simp] theorem hold_precOut : (s.hold).precOut = s.precOut := rfl
@[simp] theorem hold_r : (s.hold).r = s.r := rfl
@[simp] theorem hold_rspValid : (s.hold).rspValid = false := rfl
@[simp] theorem hold_busy : (s.hold).busy = s.busy := rfl
@[simp] theorem hold_cnt : (s.hold).cnt = s.cnt := rfl
@[simp] theorem hold_capCmd : (s.hold).capCmd = s.capCmd := rfl
@[simp] theorem hold_capA : (s.hold).capA = s.capA := rfl
@[simp] theorem hold_capB : (s.hold).capB = s.capB := rfl
@[simp] theorem hold_inputs : (s.hold).inputs = s.inputs := rfl
@[simp] theorem hold_freeCount : (s.hold).freeCount = s.freeCount := rfl

/-! ## withFetchWord -/

@[simp] theorem withFetchWord_status (nbits w : Nat) : (s.withFetchWord nbits w).status = s.status := rfl
@[simp] theorem withFetchWord_precOut (nbits w : Nat) : (s.withFetchWord nbits w).precOut = s.precOut := rfl
@[simp] theorem withFetchWord_r (nbits w : Nat) : (s.withFetchWord nbits w).r = s.r := rfl
@[simp] theorem withFetchWord_rspValid (nbits w : Nat) : (s.withFetchWord nbits w).rspValid = s.rspValid := rfl
@[simp] theorem withFetchWord_busy (nbits w : Nat) : (s.withFetchWord nbits w).busy = true := rfl
@[simp] theorem withFetchWord_cnt (nbits w : Nat) : (s.withFetchWord nbits w).cnt = 1 := rfl
@[simp] theorem withFetchWord_capCmd (nbits w : Nat) : (s.withFetchWord nbits w).capCmd = wordOfTableBits nbits w := rfl
@[simp] theorem withFetchWord_capA (nbits w : Nat) : (s.withFetchWord nbits w).capA = s.capA := rfl
@[simp] theorem withFetchWord_capB (nbits w : Nat) : (s.withFetchWord nbits w).capB = s.capB := rfl
@[simp] theorem withFetchWord_inputs (nbits w : Nat) : (s.withFetchWord nbits w).inputs = PortIn.idle :: s.inputs := rfl
@[simp] theorem withFetchWord_freeCount (nbits w : Nat) : (s.withFetchWord nbits w).freeCount = s.freeCount := rfl

/-! ## Views -/

@[simp] theorem response_status : s.response.status = s.status := rfl
@[simp] theorem response_precOut : s.response.precOut = s.precOut := rfl
@[simp] theorem response_r : s.response.r = s.r := rfl
@[simp] theorem writeResponse_response (ρ : Response) : (s.writeResponse ρ).response = ρ := rfl
@[simp] theorem advance_response : s.advance.response = s.response := rfl
@[simp] theorem capture_response (x : PortIn) : (s.capture x).response = s.response := rfl
@[simp] theorem beginBusy_response (latency : Nat) : (s.beginBusy latency).response = s.response := rfl
@[simp] theorem countDown_response : s.countDown.response = s.response := rfl
@[simp] theorem finish_response : s.finish.response = s.response := rfl
@[simp] theorem hold_response : s.hold.response = s.response := rfl
@[simp] theorem outputs_cmdReady : s.outputs.cmdReady = !s.busy := rfl
@[simp] theorem outputs_rspValid : s.outputs.rspValid = s.rspValid := rfl
@[simp] theorem outputs_rspStatus : s.outputs.rspStatus = s.status := rfl
@[simp] theorem outputs_rspPrec : s.outputs.rspPrec = s.precOut := rfl
@[simp] theorem outputs_rspR : s.outputs.rspR = s.r := rfl
@[simp] theorem withFetchWord_sample (nbits w : Nat) : (s.withFetchWord nbits w).sample = PortIn.idle := rfl

end Sys2Proof.Machine.State
end

