-- ==== Sys2Proof/Laws/Ops.lean ====
section
/-! SUPPORT. What each shared operation can do, said once: responses, the checks in their order, the operands'
bits, and the kinds of rising edge. -/

namespace Sys2Proof.Machine

/-! ## Responses -/

theorem resultRegs_getElem (rs : List Word64) (k : Fin 8) : (resultRegs rs)[k] = rs.getD k.val 0 := by
  fin_cases k <;> rfl

@[simp] theorem complete_status (st : Status) (n : Nat) (rs : List Word64) : (complete st n rs).status = st.code := rfl
@[simp] theorem complete_precOut (st : Status) (n : Nat) (rs : List Word64) :
    (complete st n rs).precOut = BitVec.ofNat 6 n := rfl
@[simp] theorem complete_r (st : Status) (n : Nat) (rs : List Word64) : (complete st n rs).r = resultRegs rs := rfl

@[simp] theorem raise_status (e : Status) : (raise e).status = e.code := rfl
@[simp] theorem raise_precOut (e : Status) : (raise e).precOut = 0 := rfl

theorem raise_getElem (e : Status) (k : Fin 8) : (raise e).r[k] = 0 := by
  fin_cases k <;> rfl

/-- An answer is always a next state: the state with the response written. -/
theorem answer_eq_next (ρ : Response) (s t : State) : answer ρ s = .next t ↔ t = s.writeResponse ρ := by
  simp only [answer, Host.Outcome.next.injEq, eq_comm]

/-! ## The checks -/

theorem precOk_iff (p : Nat) : precOk p = true ↔ 1 ≤ p ∧ p ≤ 32 := by
  rw [precOk, decide_eq_true_eq, Config.precMin, Config.precMax]

theorem childPrecOk_iff (p : Nat) : childPrecOk p = true ↔ 1 ≤ p ∧ p ≤ 31 := by
  rw [childPrecOk, decide_eq_true_eq, Config.precMin, Config.precMax]
  omega

/-- A code is well formed at p exactly when every bit from 2p up is zero. -/
theorem codeOk_iff (c : Word64) (p : Nat) : codeOk c p = true ↔ ∀ k, 2 * p ≤ k → c.getLsbD k = false := by
  rw [codeOk, decide_eq_true_eq]
  constructor
  · intro h k hk
    have := congrArg (BitVec.getLsbD · (k - 2 * p)) h
    simpa [BitVec.getLsbD_ushiftRight, Nat.add_sub_cancel' hk] using this
  · intro h
    apply BitVec.eq_of_getLsbD_eq
    intro k _
    simp [BitVec.getLsbD_ushiftRight, h]

/-- A code is well formed at p exactly when it is below `2^(2p)`. -/
theorem codeOk_iff_toNat_lt (c : Word64) (p : Nat) : codeOk c p = true ↔ c.toNat < 2 ^ (2 * p) := by
  rw [codeOk, decide_eq_true_eq, ← BitVec.toNat_inj, BitVec.toNat_ushiftRight, Nat.shiftRight_eq_div_pow]
  simp [Nat.div_eq_zero_iff]

/-- The three ways out of the checks of DECODE, NEIGHBOR, NEIGHBORS and CHILD. -/
theorem withCode_cases (legal : Nat → Bool) (p : Nat) (c : Word64) (ρ : Response) :
    (legal p = false ∧ withCode legal p c ρ = raise .invalidPrecision) ∨
      (legal p = true ∧ codeOk c p = false ∧ withCode legal p c ρ = raise .invalidCode) ∨
      (legal p = true ∧ codeOk c p = true ∧ withCode legal p c ρ = ρ) := by
  cases hl : legal p <;> cases hc : codeOk c p <;> simp [withCode, hl, hc]

theorem inRange_eq_some (x : F64) (lo width v : ℚ) :
    inRange x lo width = some v ↔ x = .finite v ∧ lo ≤ v ∧ v < lo + width := by
  cases x with
  | nan => simp [inRange]
  | inf s => simp [inRange]
  | finite q =>
    simp only [inRange, F64.finite.injEq]
    split
    · constructor
      · intro h
        cases h
        exact ⟨rfl, ‹_›⟩
      · rintro ⟨rfl, -⟩
        rfl
    · constructor
      · intro h
        cases h
      · rintro ⟨rfl, h⟩
        contradiction

theorem latitude_eq_some (x : F64) (v : ℚ) : latitude x = some v ↔ x = .finite v ∧ -90 ≤ v ∧ v < 90 := by
  rw [latitude, inRange_eq_some]
  norm_num [Config.latMin, Config.latRange]

theorem longitude_eq_some (x : F64) (v : ℚ) : longitude x = some v ↔ x = .finite v ∧ -180 ≤ v ∧ v < 180 := by
  rw [longitude, inRange_eq_some]
  norm_num [Config.lngMin, Config.lngRange]

/-- The three ways out of the checks of SCALE and ENCODE. -/
theorem withCoordinates_cases (p : Nat) (a b : F64) (f : ℚ → ℚ → Response) :
    ((latitude a = none ∨ longitude b = none) ∧ withCoordinates p a b f = raise .invalidCoordinate) ∨
      (∃ lat lng, latitude a = some lat ∧ longitude b = some lng ∧
        ((precOk p = false ∧ withCoordinates p a b f = raise .invalidPrecision) ∨
          (precOk p = true ∧ withCoordinates p a b f = f lat lng))) := by
  cases ha : latitude a with
  | none => exact .inl ⟨.inl rfl, by simp [withCoordinates, ha]⟩
  | some lat =>
    cases hb : longitude b with
    | none => exact .inl ⟨.inr rfl, by simp [withCoordinates, ha, hb]⟩
    | some lng =>
      refine .inr ⟨lat, lng, rfl, rfl, ?_⟩
      cases hp : precOk p <;> simp [withCoordinates, ha, hb, hp]

/-! ## The bit maps -/

theorem spread_getLsbD (x : AxisWord) (k : Nat) :
    (spread x).getLsbD k = (decide (k < 64) && decide (k % 2 = 0) && x.getLsbD (k / 2)) := by
  rw [spread, BitVec.getLsbD_ofFnLE]
  by_cases h : k < 64 <;> simp [h]

theorem squash_getLsbD (c : Word64) (i : Nat) : (squash c).getLsbD i = (decide (i < 32) && c.getLsbD (2 * i)) := by
  rw [squash, BitVec.getLsbD_ofFnLE]
  by_cases h : i < 32 <;> simp [h]

theorem interleave_getLsbD (lat lng : AxisWord) (k : Nat) :
    (interleave lat lng).getLsbD k =
      (decide (k < 64) && if k % 2 = 0 then lat.getLsbD (k / 2) else lng.getLsbD (k / 2)) := by
  rw [interleave, BitVec.getLsbD_or, BitVec.getLsbD_shiftLeft, spread_getLsbD, spread_getLsbD]
  by_cases hk : k < 64
  · rcases Nat.mod_two_eq_zero_or_one k with h | h
    · have h1 : k = 0 ∨ (k - 1) % 2 = 1 := by omega
      rcases h1 with rfl | h1
      · simp
      · simp [hk, h, h1]
    · have h1 : (k - 1) % 2 = 0 ∧ (k - 1) / 2 = k / 2 ∧ 1 ≤ k ∧ k - 1 < 64 := by omega
      simp [hk, h, h1.1, h1.2.1, h1.2.2.2, Nat.not_lt.2 h1.2.2.1]
  · simp [hk]

theorem lngIdx_getLsbD (c : Word64) (i : Nat) :
    (lngIdx c).getLsbD i = (decide (i < 32) && c.getLsbD (2 * i + 1)) := by
  rw [lngIdx, squash_getLsbD, BitVec.getLsbD_ushiftRight, Nat.add_comm 1]

/-! ## Direction codes and quadrant selectors -/

@[simp] theorem directionOf_code (d : Direction) : directionOf d.code = d := by cases d <;> rfl
@[simp] theorem code_directionOf (d : BitVec 3) : (directionOf d).code = d := by revert d; decide
@[simp] theorem quadrantOf_code (q : Quadrant) : quadrantOf q.code = q := by cases q <;> rfl
@[simp] theorem code_quadrantOf (q : BitVec 2) : (quadrantOf q).code = q := by revert q; decide

/-! ## Commands and edges -/

/-- Every command ends by answering with some response. -/
theorem exec_eq_answer (i : Instr) (s : State) : ∃ ρ, exec i s = answer ρ s := by
  cases i <;> exact ⟨_, rfl⟩

/-- The completing edge, once the word is decoded and the command answered. -/
theorem completionEdge_of_ok (s t : State) (i : Instr) (hd : decode s.capCmd = .ok i) (he : exec i s = .next t) :
    completionEdge s = .next t.finish := by
  simp only [completionEdge, hd, he]

/-- The completing edge of a word that is not legal. -/
theorem completionEdge_of_error (s : State) (e : Illegal) (hd : decode s.capCmd = .error e) :
    completionEdge s = .next (s.writeResponse (raise .illegalCommand)).finish := by
  simp only [completionEdge, hd]

/-- The five kinds of rising edge: reset, completing or counting down while busy, accepting, idle. -/
theorem edgeWith_cases (latency : Nat) (x : PortIn) (s : State) :
    (x.rst = true ∧ edgeWith latency x s = .next s.resetEdge) ∨
      (x.rst = false ∧ s.busy = true ∧ s.cnt ≤ 1 ∧ edgeWith latency x s = completionEdge s) ∨
      (x.rst = false ∧ s.busy = true ∧ 1 < s.cnt ∧ edgeWith latency x s = .next s.countDown) ∨
      (x.rst = false ∧ s.busy = false ∧ x.cmdValid = true ∧
        ((latency ≤ 1 ∧ edgeWith latency x s = completionEdge (s.capture x)) ∨
          (1 < latency ∧ edgeWith latency x s = .next ((s.capture x).beginBusy latency)))) ∨
      (x.rst = false ∧ s.busy = false ∧ x.cmdValid = false ∧ edgeWith latency x s = .next s.hold) := by
  cases hr : x.rst with
  | true => simp [edgeWith, hr]
  | false =>
    cases hb : s.busy with
    | true =>
      by_cases hc : s.cnt ≤ 1
      · simp [edgeWith, hr, hb, hc, Nat.sub_eq_zero_of_le hc]
      · have h1 : s.cnt - 1 ≠ 0 := by omega
        simp [edgeWith, hr, hb, h1, hc, Nat.lt_of_not_le hc]
    | false =>
      cases hv : x.cmdValid with
      | false => simp [edgeWith, accepts, hr, hb, hv]
      | true =>
        by_cases hl : latency ≤ 1
        · simp [edgeWith, accepts, hr, hb, hv, hl, Nat.sub_eq_zero_of_le hl]
        · have h1 : latency - 1 ≠ 0 := by omega
          simp [edgeWith, accepts, hr, hb, hv, h1, hl, Nat.lt_of_not_le hl]

end Sys2Proof.Machine
end

