-- ==== Sys2Proof/Laws/PerInstr.lean ====
section
/-! SUPPORT. Facts about every command as syntax, one lemma for each constructor. The family `EncodedFields` says
that the encoder puts each field where spec/30_encoding.md R48 puts it and disturbs no other. -/

namespace Sys2Proof.Laws

/-- The encoding function of 30_encoding.md R48 on the fields themselves. -/
def pack (op : BitVec 4) (p : BitVec 6) (d : BitVec 3) (q : BitVec 2) : Word32 :=
  op.setWidth 32 ||| (p.setWidth 32 <<< 4) ||| (d.setWidth 32 <<< 10) ||| (q.setWidth 32 <<< 13)

section
variable (op : BitVec 4) (p : BitVec 6) (d : BitVec 3) (q : BitVec 2)

theorem pack_opField : opField (pack op p d q) = op := by
  apply BitVec.eq_of_getLsbD_eq
  intro k hk
  simp only [opField, pack, BitVec.getLsbD_extractLsb', BitVec.getLsbD_or, BitVec.getLsbD_shiftLeft,
    BitVec.getLsbD_setWidth]
  interval_cases k <;> simp

theorem pack_precField : precField (pack op p d q) = p := by
  apply BitVec.eq_of_getLsbD_eq
  intro k hk
  simp only [precField, pack, BitVec.getLsbD_extractLsb', BitVec.getLsbD_or, BitVec.getLsbD_shiftLeft,
    BitVec.getLsbD_setWidth]
  interval_cases k <;> simp

theorem pack_dirField : dirField (pack op p d q) = d := by
  apply BitVec.eq_of_getLsbD_eq
  intro k hk
  simp only [dirField, pack, BitVec.getLsbD_extractLsb', BitVec.getLsbD_or, BitVec.getLsbD_shiftLeft,
    BitVec.getLsbD_setWidth]
  interval_cases k <;> simp

theorem pack_quadField : quadField (pack op p d q) = q := by
  apply BitVec.eq_of_getLsbD_eq
  intro k hk
  simp only [quadField, pack, BitVec.getLsbD_extractLsb', BitVec.getLsbD_or, BitVec.getLsbD_shiftLeft,
    BitVec.getLsbD_setWidth]
  interval_cases k <;> simp

theorem pack_rsvdField : rsvdField (pack op p d q) = 0 := by
  apply BitVec.eq_of_getLsbD_eq
  intro k hk
  simp only [rsvdField, pack, BitVec.getLsbD_extractLsb', BitVec.getLsbD_or, BitVec.getLsbD_shiftLeft,
    BitVec.getLsbD_setWidth]
  interval_cases k <;> simp

end

/-- A well-formed command is the packing of its own fields. -/
theorem encode_eq_pack (i : Instr) (hp : i.prec < 64) :
    encode i = pack (BitVec.ofNat 4 i.opcode) (BitVec.ofNat 6 i.prec) i.dir i.quad := by
  have hop : (BitVec.ofNat 4 i.opcode).setWidth 32 = BitVec.ofNat 32 i.opcode := by
    cases i <;> rfl
  have hpr : (BitVec.ofNat 6 i.prec).setWidth 32 = BitVec.ofNat 32 i.prec := by
    apply BitVec.eq_of_toNat_eq
    simp only [BitVec.toNat_setWidth, BitVec.toNat_ofNat]
    omega
  rw [encode, pack, hop, hpr]

namespace EncodedFields

/-- The word of a well-formed command carries its opcode, its precision, its direction and its quadrant in their
fields, and zero in the reserved field. -/
def Statement (i : Instr) : Prop :=
  i.wellFormed = true →
    (opField (encode i)).toNat = i.opcode ∧ (precField (encode i)).toNat = i.prec ∧
      dirField (encode i) = i.dir ∧ quadField (encode i) = i.quad ∧ rsvdField (encode i) = 0

theorem of_prec_lt (i : Instr) (hp : i.prec < 64) :
    (opField (encode i)).toNat = i.opcode ∧ (precField (encode i)).toNat = i.prec ∧
      dirField (encode i) = i.dir ∧ quadField (encode i) = i.quad ∧ rsvdField (encode i) = 0 := by
  rw [encode_eq_pack i hp, pack_opField, pack_precField, pack_dirField, pack_quadField, pack_rsvdField]
  refine ⟨?_, ?_, rfl, rfl, rfl⟩
  · cases i <;> rfl
  · rw [BitVec.toNat_ofNat, Nat.mod_eq_of_lt hp]

theorem spread : Statement .spread := fun _ => of_prec_lt .spread (by decide)
theorem squash : Statement .squash := fun _ => of_prec_lt .squash (by decide)
theorem interleave : Statement .interleave := fun _ => of_prec_lt .interleave (by decide)
theorem deinterleave : Statement .deinterleave := fun _ => of_prec_lt .deinterleave (by decide)
theorem scale (p : Nat) : Statement (.scale p) := fun h => of_prec_lt (.scale p) (of_decide_eq_true h)
theorem encode (p : Nat) : Statement (.encode p) := fun h => of_prec_lt (.encode p) (of_decide_eq_true h)
theorem decode (p : Nat) : Statement (.decode p) := fun h => of_prec_lt (.decode p) (of_decide_eq_true h)
theorem neighbor (p : Nat) (d : Direction) : Statement (.neighbor p d) :=
  fun h => of_prec_lt (.neighbor p d) (of_decide_eq_true h)
theorem neighbors (p : Nat) : Statement (.neighbors p) := fun h => of_prec_lt (.neighbors p) (of_decide_eq_true h)
theorem child (p : Nat) (q : Quadrant) : Statement (.child p q) :=
  fun h => of_prec_lt (.child p q) (of_decide_eq_true h)

end EncodedFields

end Sys2Proof.Laws
end

