-- ==== Sys2Proof/Laws/Safety.lean ====
section
/-! SUPPORT. The terms of Safety.lean against the operations that decide them. -/

namespace Sys2Proof.Machine

theorem isLatitude_iff (w : Word64) (v : ℚ) : IsLatitude w v ↔ latitude (f64val w) = some v :=
  (latitude_eq_some (f64val w) v).symm

theorem isLongitude_iff (w : Word64) (v : ℚ) : IsLongitude w v ↔ longitude (f64val w) = some v :=
  (longitude_eq_some (f64val w) v).symm

theorem wellFormedCode_iff (c : Word64) (p : Nat) : WellFormedCode c p ↔ codeOk c p = true :=
  (codeOk_iff c p).symm

/-- A coordinate word that the latitude check refuses has no latitude. -/
theorem no_latitude (w : Word64) (h : latitude (f64val w) = none) : ¬∃ v, IsLatitude w v := by
  rintro ⟨v, hv⟩
  rw [isLatitude_iff, h] at hv
  cases hv

/-- A coordinate word that the longitude check refuses has no longitude. -/
theorem no_longitude (w : Word64) (h : longitude (f64val w) = none) : ¬∃ v, IsLongitude w v := by
  rintro ⟨v, hv⟩
  rw [isLongitude_iff, h] at hv
  cases hv

/-- What a state shows after a response was written is that response. -/
theorem shows_writeResponse_complete (s : State) (st : Status) (n : Nat) (rs : List Word64) (hn : n < 64) :
    (s.writeResponse (complete st n rs)).shows st.code n rs := by
  refine ⟨rfl, ?_, fun k => resultRegs_getElem rs k⟩
  simp only [State.writeResponse_precOut, complete_precOut, BitVec.toNat_ofNat]
  omega

/-- A written error response shows its status and zeroes. -/
theorem shows_writeResponse_raise (s : State) (e : Status) : (s.writeResponse (raise e)).shows e.code 0 [] :=
  shows_writeResponse_complete s e 0 [] (by decide)

/-- Writing a response changes nothing else. -/
theorem sameOutsideResponse_writeResponse (s : State) (ρ : Response) : SameOutsideResponse s (s.writeResponse ρ) :=
  ⟨rfl, rfl, rfl, rfl, rfl, rfl, rfl, rfl⟩

end Sys2Proof.Machine
end

