-- ==== Sys2Proof/Tests/Slice0.lean ====
section
/-! SUPPORT. Tests. Expected values come from spec/30_encoding.md R63 and spec/95_test_vectors.md; the witnesses show
that the hypotheses of the statements can be met, at the edges of their ranges. -/

namespace Sys2Proof.Tests

-- One theorem at a time: elaborated together, these theorems start more threads than the check's memory allows.
set_option Elab.async false

open Sys2Proof.Machine

/-! ## WellFormed: an ill-formed term for the one check, at each constructor it guards -/

theorem test_scale_prec_64_refused : (Instr.scale 64).wellFormed = false := by decide
theorem test_encode_prec_64_refused : (Instr.encode 64).wellFormed = false := by decide
theorem test_decode_prec_64_refused : (Instr.decode 64).wellFormed = false := by decide
theorem test_neighbor_prec_64_refused : (Instr.neighbor 64 .west).wellFormed = false := by decide
theorem test_neighbors_prec_64_refused : (Instr.neighbors 64).wellFormed = false := by decide
theorem test_child_prec_64_refused : (Instr.child 64 .leftTop).wellFormed = false := by decide
theorem test_prec_63_accepted : (Instr.child 63 .leftTop).wellFormed = true := by decide

/-! ## Decoding: words written out from the encoding of 30_encoding.md R48 (and its examples, R63) -/

theorem test_decode_spread : decode 0b00000000000000000000000000000001 = .ok .spread := by decide
theorem test_decode_squash : decode 0b00000000000000000000000000000010 = .ok .squash := by decide
theorem test_decode_interleave : decode 0b00000000000000000000000000000011 = .ok .interleave := by decide
theorem test_decode_deinterleave : decode 0b00000000000000000000000000000100 = .ok .deinterleave := by decide
/-- RSVD 0, QUAD 00, DIR 000, PREC 001111, OP 0101. -/
theorem test_decode_scale : decode 0b00000000000000000_00_000_001111_0101 = .ok (.scale 15) := by decide
theorem test_decode_encode : decode 0b00000000000000000_00_000_100001_0110 = .ok (.encode 33) := by decide
theorem test_decode_decode : decode 0b00000000000000000_00_000_111111_0111 = .ok (.decode 63) := by decide
theorem test_decode_neighbor :
    decode 0b00000000000000000_00_011_000011_1000 = .ok (.neighbor 3 .west) := by decide
theorem test_decode_neighbors : decode 0b00000000000000000_00_000_100000_1001 = .ok (.neighbors 32) := by decide
theorem test_decode_child : decode 0b00000000000000000_11_000_001111_1010 = .ok (.child 15 .rightTop) := by decide
/-- The illegal words of 95_test_vectors.md, each rejected by its name. -/
theorem test_decode_zero : decode 0x00000000 = .error .reservedOpcode := by decide
theorem test_decode_opcode_0xB : decode 0x0000000B = .error .reservedOpcode := by decide
theorem test_decode_spread_with_prec : decode 0x00000011 = .error .unusedField := by decide
theorem test_decode_reserved_bit : decode 0x00008001 = .error .reservedBits := by decide
theorem test_decode_neighbor_with_quad : decode 0x00002018 = .error .unusedField := by decide
theorem test_decode_child_with_dir : decode 0x0000041A = .error .unusedField := by decide
theorem test_decodeTableWord_child : decodeTableWord 32 0x000060FA = some (.child 15 .rightTop) := by decide

/-! ## One step on a small state: the response after `withFetchWord`, from 95_test_vectors.md -/

/-- The reset state with these captured operands. -/
def holding (a b : Word64) : State := { State.reset with capA := a, capB := b }

/-- The response one step gives for this command word and these operands. -/
def respondsTo (w : Nat) (a b : Word64) : Option Response :=
  match step ((holding a b).withFetchWord 32 w) with
  | .next t => some t.response
  | .fault _ => none
  | .refused _ => none

/-- A response written out. -/
def shown (st : BitVec 3) (p : BitVec 6) (rs : List Word64) : Option Response :=
  some { status := st, precOut := p, r := resultRegs rs }

theorem test_spread : respondsTo 0x00000001 0x12345678 0 = shown 1 0 [0x0104051011141540] := by decide +kernel
theorem test_spread_ignores_high_bits : respondsTo 0x00000001 0xFFFFFFFF00000001 0 = shown 1 0 [1] := by
  decide +kernel
theorem test_squash : respondsTo 0x00000002 0x0123456789ABCDEF 0 = shown 1 0 [0x11BB11BB] := by decide +kernel
theorem test_squash_ignores_odd_bits : respondsTo 0x00000002 0xAAAAAAAAAAAAAAAA 0 = shown 1 0 [0] := by
  decide +kernel
theorem test_interleave : respondsTo 0x00000003 0x100000005 0xFFFFFFFF00000009 = shown 1 0 [0x93] := by
  decide +kernel
theorem test_interleave_lng_is_odd : respondsTo 0x00000003 0 1 = shown 1 0 [2] := by decide +kernel
theorem test_deinterleave : respondsTo 0x00000004 0x398B58EA 0 = shown 1 0 [0x6B2F, 0x51C8] := by decide +kernel
theorem test_deinterleave_top_bit : respondsTo 0x00000004 0x8000000000000000 0 = shown 1 0 [0x80000000, 0] := by
  decide +kernel
theorem test_scale_exact :
    respondsTo 0x00000075 0xC016800000000002 0 = shown 1 7 [0x40, 0x3B] := by decide +kernel
theorem test_scale_largest_value :
    respondsTo 0x00000205 0x40567FFFFFFFFFFF 0x40667FFFFFFFFFFF = shown 1 32 [0xFFFFFFFF, 0xFFFFFFFF] := by
  decide +kernel
theorem test_encode : respondsTo 0x000000F6 0x40390189374BC6A8 0x405E5D70A3D70A3D = shown 1 15 [0x398B58EA] := by
  decide +kernel
theorem test_encode_coordinate_before_precision :
    respondsTo 0x00000006 0x4056800000000000 0 = shown 3 0 [] := by decide +kernel
theorem test_decode : respondsTo 0x000000F7 0x398B58EA 0 =
    shown 1 15 [0x4039014000000000, 0x403902A800000000, 0x405E5D0C00000000, 0x405E5DC000000000] := by
  decide +kernel
theorem test_decode_zero_bounds_are_positive :
    respondsTo 0x00000017 0x2 0 = shown 1 1 [0xC056800000000000, 0, 0, 0x4066800000000000] := by decide +kernel
theorem test_neighbor_wraps_west : respondsTo 0x00000C38 0 0 = shown 1 3 [0x2A] := by decide +kernel
theorem test_neighbor_south_at_32 : respondsTo 0x00000A08 0 0 = shown 1 32 [0x5555555555555555] := by
  decide +kernel
theorem test_neighbors : respondsTo 0x00000039 0x27 0 =
    shown 1 3 [0x32, 0x2D, 0x26, 0x25, 0x38, 0x2C, 0x24, 0x30] := by decide +kernel
theorem test_neighbors_invalid_code : respondsTo 0x00000029 0x10 0 = shown 4 0 [] := by decide +kernel
theorem test_child : respondsTo 0x000061FA 0x3FFFFFFFFFFFFFFF 0 = shown 1 32 [0xFFFFFFFFFFFFFFFF] := by
  decide +kernel
theorem test_child_at_32 : respondsTo 0x0000020A 0 0 = shown 2 0 [] := by decide +kernel
theorem test_illegal_word : respondsTo 0x80000006 0 0 = shown 5 0 [] := by decide +kernel

/-! ## One edge of program P6 of 95_test_vectors.md (LATENCY = 3) -/

/-- An offered command. -/
def offer (c : Word32) (a b : Word64) : PortIn := { PortIn.idle with cmdValid := true, cmd := c, opa := a, opb := b }

/-- A reset edge's inputs. -/
def resetInput : PortIn := { PortIn.idle with rst := true }

/-- BUSY, CNT, RSP_VALID, STATUS and R0 after one edge. -/
def afterEdge (latency : Nat) (s : State) : Option (Bool × Nat × Bool × BitVec 3 × Word64) :=
  match edge latency s with
  | .next t => some (t.busy, t.cnt, t.rspValid, t.status, t.r[0])
  | .fault _ => none
  | .refused _ => none

/-- The state before edge 2: SPREAD offered. -/
def beforeEdge2 : State := { State.reset with inputs := [offer 1 3 0] }

/-- The state before edge 4: SPREAD in flight, SQUASH offered. -/
def beforeEdge4 : State :=
  { State.reset with inputs := [offer 2 0x398B58EA 0], busy := true, cnt := 1, capCmd := 1, capA := 3 }

theorem test_p6_edge2_accepts : afterEdge 3 beforeEdge2 = some (true, 2, false, 0, 0) := by decide +kernel
theorem test_p6_edge4_completes : afterEdge 3 beforeEdge4 = some (false, 0, true, 1, 5) := by decide +kernel
theorem test_latency_one_completes_at_once : afterEdge 1 beforeEdge2 = some (false, 0, true, 1, 5) := by
  decide +kernel

/-! ## The assembler's literals (30_encoding.md R61, 95_test_vectors.md L1.5) -/

theorem test_f64_literals :
    ["f64:25.006", "f64:121.46", "f64:-0.0", "f64:nan", "f64:inf", "f64:-90.0001", "f64:-180.0001"].map
        (fun x => operandLiteral x.toList) =
      [some 0x40390189374BC6A8, some 0x405E5D70A3D70A3D, some 0x8000000000000000, some 0x7FF8000000000000,
       some 0x7FF0000000000000, some 0xC0568001A36E2EB2, some 0xC0668000D1B71759] := by decide +kernel

theorem test_literal_above_64_bits_refused :
    (operandLiteral "0x10000000000000000".toList, operandLiteral "0b101".toList) = (none, some 5) := by
  decide +kernel

/-! ## Witnesses: the hypotheses of each statement, met together -/

/-- 25 degrees. -/
def word25 : Word64 := 0x4039000000000000

/-- 90 degrees, no latitude. -/
def word90 : Word64 := 0x4056800000000000

theorem latitude_25 : IsLatitude word25 25 := ⟨by decide +kernel, by norm_num, by norm_num⟩
theorem longitude_25 : IsLongitude word25 25 := ⟨by decide +kernel, by norm_num, by norm_num⟩
theorem latitude_lowest : IsLatitude 0xC056800000000000 (-90) := ⟨by decide +kernel, by norm_num, by norm_num⟩
theorem no_latitude_90 : ¬∃ v, IsLatitude word90 v := no_latitude word90 (by decide +kernel)
theorem no_longitude_180 : ¬∃ v, IsLongitude 0x4066800000000000 v := no_longitude _ (by decide +kernel)
theorem well_formed_at_32 : WellFormedCode 0xFFFFFFFFFFFFFFFF 32 := (wellFormedCode_iff _ _).2 (by decide +kernel)
theorem well_formed_at_31 : WellFormedCode 0x3FFFFFFFFFFFFFFF 31 := (wellFormedCode_iff _ _).2 (by decide +kernel)
theorem well_formed_at_1 : WellFormedCode 3 1 := (wellFormedCode_iff _ _).2 (by decide +kernel)
theorem ill_formed_at_1 : ¬WellFormedCode 4 1 := mt (wellFormedCode_iff _ _).1 (by decide +kernel)
theorem ill_formed_at_31 : ¬WellFormedCode 0x4000000000000000 31 := mt (wellFormedCode_iff _ _).1 (by decide +kernel)

theorem witness_DecodeInvertsEncode : (Instr.child 63 .rightTop).wellFormed = true := by decide

theorem witness_EncodeInvertsDecode : decode 0x000063FA = .ok (.child 63 .rightTop) := by decide

theorem witness_LegalWordsAreTheTableRows :
    decode 0x00001FF8 = .ok (.neighbor 63 .northWest) ∧
      (0x00001FF8 : Word32) &&& 0xFFFFE00F = 0x00000008 := by decide

theorem witness_IllegalWordsReportIllegalCommand_legal :
    let w : Word32 := 0x000060FA
    w.extractLsb' 15 17 = 0 ∧ (1 ≤ (w.extractLsb' 0 4).toNat ∧ (w.extractLsb' 0 4).toNat ≤ 0xA) ∧
      (w.extractLsb' 0 4).toNat = 0xA ∧ w.extractLsb' 10 3 = 0 := by decide

theorem witness_IllegalWordsReportIllegalCommand_illegal : (0x00008001 : Word32).extractLsb' 15 17 ≠ 0 := by decide

theorem witness_DirectionAndQuadrantCodes : (0 : Nat) < 64 ∧ (63 : Nat) < 64 := by decide

/-- Each hypothesis of PseudoInstructionsExpand: a pseudo-instruction and its expansion at both ends of the precision
range, with their arguments, and a CMD line at the largest word. -/
theorem witness_PseudoInstructionsExpand_arguments :
    let ws := ["p=63".toList, "a=0xFFFFFFFFFFFFFFFF".toList]
    lineWords "RIGHT_TOP p=63 a=0xFFFFFFFFFFFFFFFF".toList = "RIGHT_TOP".toList :: ws ∧
      lineWords "CHILD.RT p=63 a=0xFFFFFFFFFFFFFFFF".toList = "CHILD.RT".toList :: ws ∧
      ws = [['p', '='] ++ "63".toList, ['a', '='] ++ "0xFFFFFFFFFFFFFFFF".toList] ∧
      number 10 "63".toList = some 63 ∧ number 10 "0".toList = some 0 ∧
      operandLiteral "0xFFFFFFFFFFFFFFFF".toList = some 0xFFFFFFFFFFFFFFFF := by decide +kernel

theorem witness_PseudoInstructionsExpand_raw :
    let ws := ["a=1".toList, "b=2".toList]
    lineWords "CMD 0xFFFFFFFF a=1 b=2".toList = "CMD".toList :: "0xFFFFFFFF".toList :: ws ∧
      naturalLiteral "0xFFFFFFFF".toList = some (2 ^ 32 - 1) ∧ operands ws = some (1, 2) := by decide +kernel

theorem witness_PseudoInstructionsExpand_legal :
    assemble "NEIGHBOR.NW p=63" = some ⟨0x00001FF8, 0, 0⟩ ∧
      (lineWords "NEIGHBOR.NW p=63".toList).head? ≠ some "CMD".toList := by decide +kernel

/-- The examples of 30_encoding.md R62's table, and the raw word of 95_test_vectors.md. -/
theorem test_pseudo_instruction : assemble "LEFT_TOP p=15 a=0x398B58EA" = some ⟨0x000020FA, 0x398B58EA, 0⟩ := by
  decide +kernel
theorem test_raw_command : assemble "CMD 0x00000011 a=1" = some ⟨0x00000011, 1, 0⟩ := by decide +kernel

theorem witness_ResetEdgesGiveResetValues :
    let s : State := { beforeEdge4 with inputs := [resetInput, resetInput] }
    0 < 2 ∧ 2 ≤ s.inputs.length ∧ ∀ x ∈ s.inputs.take 2, x.rst = true := by decide

theorem witness_ResetAbandonsCommandInFlight :
    let s : State := { beforeEdge4 with inputs := [resetInput, PortIn.idle] }
    s.busy = true ∧ s.sample.rst = true ∧ QuietInputs (s.inputs.tail.take 1) := by
  simp [beforeEdge4, State.sample, resetInput, QuietInputs, PortIn.idle]

theorem witness_IdleCapturesNeverShow : State.reset.busy = false := rfl

theorem witness_ResponseIsWrittenAtEdgeLatency :
    let s : State := { State.reset with inputs := [offer 1 3 0, offer 2 9 0, PortIn.idle, PortIn.idle] }
    1 ≤ 3 ∧ s.busy = false ∧ s.sample.cmdValid = true ∧ NoReset (s.inputs.take 3) ∧ (1 ≤ 2 ∧ 2 < 3) ∧
      QuietInputs ((s.inputs.drop 3).take 1) := by
  simp [State.reset, State.sample, offer, PortIn.idle, NoReset, QuietInputs]

theorem witness_BusyCountsDownToCompletion_idle :
    beforeEdge2.sample.rst = false ∧ beforeEdge2.busy = false ∧ beforeEdge2.sample.cmdValid = true ∧
      NoReset (beforeEdge2.inputs.take 2) := by
  simp [beforeEdge2, State.reset, State.sample, offer, PortIn.idle, NoReset]

theorem witness_BusyCountsDownToCompletion_counting :
    let s : State := { beforeEdge4 with cnt := 2 }
    s.sample.rst = false ∧ s.busy = true ∧ 1 < s.cnt := by decide

theorem witness_BusyCountsDownToCompletion_completing :
    beforeEdge4.sample.rst = false ∧ beforeEdge4.busy = true ∧ beforeEdge4.cnt = 1 := by decide

theorem witness_UnacceptedPortValuesHaveNoEffect :
    (offer 1 3 0).rst = (offer 2 5 9).rst ∧ beforeEdge4.busy = true ∧ resetInput.rst = true ∧
      (PortIn.idle.cmdValid = false ∧ { PortIn.idle with cmd := 7 }.cmdValid = false) := by decide

theorem witness_ResponseDoesNotDependOnLatency :
    let s₁ : State := beforeEdge2
    let s₂ : State := { State.reset with status := 5, inputs := [offer 1 3 0, offer 2 7 0, PortIn.idle] }
    s₁.busy = false ∧ s₂.busy = false ∧ s₁.sample.cmdValid = true ∧ s₂.sample = s₁.sample ∧
      NoReset (s₁.inputs.take 3) ∧ NoReset (s₂.inputs.take 1) ∧ (1 ≤ 2 ∧ 2 < 3) := by
  simp [beforeEdge2, State.reset, State.sample, offer, PortIn.idle, NoReset]

/-- A state for each kind of edge: reset, the last edge of a busy block, the accepting edge at LATENCY = 1, and three
others (an idle edge, a busy edge that counts, the accepting edge at LATENCY = 2). -/
theorem witness_ResponseChangesOnlyAtCompletionOrReset :
    State.sample { State.reset with inputs := [resetInput] } = resetInput ∧
      (beforeEdge4.sample.rst = false ∧ beforeEdge4.busy = true ∧ beforeEdge4.cnt ≤ 1) ∧
      (beforeEdge2.sample.rst = false ∧ beforeEdge2.busy = false ∧ beforeEdge2.sample.cmdValid = true) ∧
      (State.reset.sample.rst = false ∧ State.reset.busy = false ∧ State.reset.sample.cmdValid = false) ∧
      ¬State.cnt { beforeEdge4 with cnt := 2 } ≤ 1 ∧ (2 : Nat) ≠ 1 := by decide

theorem witness_StepRunsDecodedCommand :
    beforeEdge4.sample.rst = false ∧ beforeEdge4.busy = true ∧ beforeEdge4.cnt = 1 ∧
      decode beforeEdge4.capCmd = .ok .spread ∧
      ∃ t, exec .spread { beforeEdge4 with inputs := beforeEdge4.inputs.tail } = .next t :=
  ⟨by decide, by decide, by decide, by decide, _, rfl⟩

theorem witness_ErrorsWriteZeroes :
    ∃ t, completionEdge { beforeEdge4 with capCmd := 0 } = .next t ∧ t.status ≠ 1 :=
  ⟨_, rfl, by decide⟩

theorem witness_FirstFailingCheckDecides_words :
    decode 0x00000000 = .error .reservedOpcode ∧ decode 0x00000004 = .ok .deinterleave ∧
      decode 0x00000215 = .ok (.scale 33) ∧ decode 0x00000206 = .ok (.encode 32) ∧
      decode 0x00000007 = .ok (.decode 0) ∧ decode 0x00000019 = .ok (.neighbors 1) ∧
      decode 0x0000020A = .ok (.child 32 .leftBottom) ∧ decode 0x000001FA = .ok (.child 31 .leftBottom) := by decide

theorem witness_FirstFailingCheckDecides_operands :
    (¬∃ v, IsLatitude word90 v) ∧ (¬∃ v, IsLongitude 0x4066800000000000 v) ∧ (∃ v, IsLatitude word25 v) ∧
      (∃ v, IsLongitude word25 v) ∧ ¬WellFormedCode 4 1 ∧ WellFormedCode 3 1 ∧ WellFormedCode 0x3FFFFFFFFFFFFFFF 31 :=
  ⟨no_latitude_90, no_longitude_180, ⟨_, latitude_25⟩, ⟨_, longitude_25⟩, ill_formed_at_1, well_formed_at_1,
    well_formed_at_31⟩

theorem witness_PrecOutOfEachCompletion :
    responseOf 0x00000001 3 0 = shown 1 0 [5] ∧ responseOf 0x00000005 0 0 = shown 2 0 [] ∧
      responseOf 0x000061FA 0x3FFFFFFFFFFFFFFF 0 = shown 1 32 [0xFFFFFFFFFFFFFFFF] ∧
      State.sample { State.reset with inputs := [resetInput] } = resetInput := by decide +kernel

theorem witness_ResetEdgeEstablishesInvariant :
    let s : State := { State.reset with status := 7, precOut := 63, busy := true, cnt := 9, inputs := [resetInput] }
    s.sample.rst = true := rfl

theorem witness_StepKeepsInvariant :
    State.Inv { State.reset with status := 1, precOut := 32, r := resultRegs [5], rspValid := true } where
  status_written := by decide
  prec_written := by decide
  results_only_when_ok := fun h => absurd rfl h
  valid_shows_response := fun _ => ⟨by decide, rfl⟩
  busy_counts := by decide
  count_bounded := Nat.succ_pos _

theorem witness_InterleaveResult :
    ((holding 0xFFFFFFFF 0xFFFFFFFF).capA.extractLsb' 0 32).toNat < 2 ^ 32 ∧
      ((holding 0 0).capB.extractLsb' 0 32).toNat < 2 ^ 0 ∧ (31 : Nat) < 32 := by decide

theorem witness_WordOfAValueIsExact : ∃ v, f64val 0x0000000000000001 = .finite v ∧ v ≠ 0 :=
  ⟨mkRat 1 (2 ^ 1074), by decide +kernel, by decide +kernel⟩

theorem witness_CellBoundsAreExact : (0 : Nat) ≤ 32 ∧ (32 : Nat) ≤ 32 ∧ (2 ^ 32 : Nat) ≤ 2 ^ 32 := by decide

theorem witness_BinarySixtyFourLayout :
    (0x7FF0000000000001 : Word64).extractLsb' 52 11 = 0x7FF ∧ (0x0010000000000000 : Word64).extractLsb' 52 11 = 1 ∧
      (0x8000000000000001 : Word64).extractLsb' 52 11 = 0 := by decide

theorem witness_CoordinateValidity :
    (1 ≤ 32 ∧ ∃ t, exec (.scale 32) (holding word25 word90) = .next t) ∧
      (0xFFF0000000000000 : Word64).extractLsb' 52 11 = 0x7FF ∧ (1 : Word64).extractLsb' 52 11 = 0 :=
  ⟨⟨by decide, _, rfl⟩, by decide, by decide⟩

/-- Also for EncodeResult: the operands and both ends of the precision range, and coordinates that are refused. -/
theorem witness_ScaleResult :
    IsLatitude (holding 0xC056800000000000 word25).capA (-90) ∧ IsLongitude (holding 0 word25).capB 25 ∧
      (¬∃ v, IsLatitude (holding word90 0).capA v) ∧ (¬∃ v, IsLongitude (holding 0 0x4066800000000000).capB v) ∧
      ((0 < 1 ∨ 32 < 0) ∧ (33 < 1 ∨ 32 < 33) ∧ 1 ≤ 1 ∧ 32 ≤ 32) :=
  ⟨latitude_lowest, longitude_25, no_latitude_90, no_longitude_180, by decide⟩

theorem witness_EncodeResult :
    IsLatitude (holding word25 word25).capA 25 ∧ IsLongitude (holding word25 word25).capB 25 ∧
      (¬∃ v, IsLatitude (holding word90 word25).capA v) ∧ (1 ≤ 32 ∧ 32 ≤ 32 ∧ 32 < 33) :=
  ⟨latitude_25, longitude_25, no_latitude_90, by decide⟩

theorem witness_ScaleAgreesWithEncode :
    IsLatitude (holding word25 word25).capA 25 ∧ IsLongitude (holding word25 word25).capB 25 ∧ 1 ≤ 1 ∧ 1 ≤ 32 :=
  ⟨latitude_25, longitude_25, by decide⟩

theorem witness_HalfOpenBoundary : (-90 : ℚ) ≤ -90 ∧ (-90 : ℚ) < 90 ∧ (-180 : ℚ) ≤ -180 ∧ 1 ≤ 32 ∧ 32 ≤ 32 := by
  norm_num

/-- Also for NeighborResult and NeighborsResult: each range of precisions at its ends, and codes on both sides of
the well-formedness check. -/
theorem witness_DecodeResult :
    WellFormedCode (holding 0xFFFFFFFFFFFFFFFF 0).capA 32 ∧ WellFormedCode (holding 3 0).capA 1 ∧
      ¬WellFormedCode (holding 4 0).capA 1 ∧ (0 < 1 ∨ 32 < 0) ∧ (33 < 1 ∨ 32 < 33) :=
  ⟨well_formed_at_32, well_formed_at_1, ill_formed_at_1, by decide⟩

theorem witness_RoundTripContainment :
    IsLatitude (holding 0xC056800000000000 word25).capA (-90) ∧
      IsLongitude (holding 0xC056800000000000 word25).capB 25 ∧ 1 ≤ 32 ∧ 32 ≤ 32 :=
  ⟨latitude_lowest, longitude_25, by decide⟩

theorem witness_CellShrink :
    IsLatitude (holding word25 word25).capA 25 ∧ IsLongitude (holding word25 word25).capB 25 ∧ 1 ≤ 31 ∧ 31 ≤ 31 :=
  ⟨latitude_25, longitude_25, by decide⟩

theorem witness_NeighborResult :
    WellFormedCode (holding 0xFFFFFFFFFFFFFFFF 0).capA 32 ∧
      ¬WellFormedCode (holding 0x4000000000000000 0).capA 31 ∧ (63 < 1 ∨ 32 < 63) :=
  ⟨well_formed_at_32, ill_formed_at_31, by decide⟩

theorem witness_NeighborsResult :
    WellFormedCode (holding 3 0).capA 1 ∧ ¬WellFormedCode (holding 4 0).capA 1 ∧ (0 < 1 ∨ 32 < 0) :=
  ⟨well_formed_at_1, ill_formed_at_1, by decide⟩

theorem witness_DatapathEqualsIndexArithmetic : 1 ≤ 32 ∧ 32 ≤ 32 ∧ WellFormedCode 0xFFFFFFFFFFFFFFFF 32 :=
  ⟨by decide, by decide, well_formed_at_32⟩

theorem witness_NeighborLaws : 1 ≤ 1 ∧ 1 ≤ 32 ∧ WellFormedCode 3 1 := ⟨by decide, by decide, well_formed_at_1⟩

theorem witness_ChildResult :
    WellFormedCode (holding 0x3FFFFFFFFFFFFFFF 0).capA 31 ∧
      ¬WellFormedCode (holding 0x4000000000000000 0).capA 31 ∧ (0 < 1 ∨ 31 < 0) ∧ (32 < 1 ∨ 31 < 32) :=
  ⟨well_formed_at_31, ill_formed_at_31, by decide⟩

theorem witness_ChildIndices : 1 ≤ 31 ∧ 31 ≤ 31 ∧ WellFormedCode 0x3FFFFFFFFFFFFFFF 31 :=
  ⟨by decide, by decide, well_formed_at_31⟩

theorem witness_ChildrenTileTheParent : 1 ≤ 1 ∧ 1 ≤ 31 ∧ WellFormedCode (holding 3 0).capA 1 :=
  ⟨by decide, by decide, well_formed_at_1⟩

end Sys2Proof.Tests
end

section
/-! Rules for commands, completing edges and runs of edges that the statements about the edge protocol share. -/

namespace Sys2Proof.Machine

/-! ## The response of a command -/

/-- What a command answers, as a function of its two operands alone. -/
def commandResponse (a b : Word64) : Instr → Response
  | .spread => complete .ok 0 [spread (a.extractLsb' 0 32)]
  | .squash => complete .ok 0 [zext64 (squash a)]
  | .interleave => complete .ok 0 [interleave (a.extractLsb' 0 32) (b.extractLsb' 0 32)]
  | .deinterleave => complete .ok 0 [zext64 (lngIdx a), zext64 (latIdx a)]
  | .scale p => withCoordinates p (f64val a) (f64val b) fun lat lng =>
      complete .ok p [zext64 (lngIndex lng p), zext64 (latIndex lat p)]
  | .encode p => withCoordinates p (f64val a) (f64val b) fun lat lng =>
      complete .ok p [interleave (latIndex lat p) (lngIndex lng p)]
  | .decode p => withCode precOk p a (cellResponse p a)
  | .neighbor p d => withCode precOk p a (complete .ok p [neighbor a p d])
  | .neighbors p => withCode precOk p a (complete .ok p (directions.map (neighbor a p)))
  | .child p q => withCode childPrecOk p a (complete .ok (p + 1) [child a q.code])

theorem exec_eq_answer_commandResponse (i : Instr) (s : State) :
    exec i s = answer (commandResponse s.capA s.capB i) s := by
  cases i <;> rfl

/-- A completed command shows a result, or an error with zeroes (00_scope.md R18, 60_exceptions.md R103). -/
def Response.IsResultOrError (ρ : Response) : Prop := ρ.status = 1 ∨ ∃ e : Status, e ≠ .ok ∧ ρ = raise e

theorem complete_ok_isResultOrError (n : Nat) (rs : List Word64) : (complete .ok n rs).IsResultOrError := .inl rfl

theorem raise_isResultOrError {e : Status} (he : e ≠ .ok) : (raise e).IsResultOrError := .inr ⟨e, he, rfl⟩

theorem withCode_isResultOrError {legal : Nat → Bool} {p : Nat} {c : Word64} {ρ : Response}
    (hρ : ρ.IsResultOrError) : (withCode legal p c ρ).IsResultOrError := by
  obtain ⟨-, h⟩ | ⟨-, -, h⟩ | ⟨-, -, h⟩ := withCode_cases legal p c ρ <;> rw [h]
  · exact raise_isResultOrError (by decide)
  · exact raise_isResultOrError (by decide)
  · exact hρ

theorem withCoordinates_isResultOrError {p : Nat} {a b : F64} {f : ℚ → ℚ → Response}
    (hf : ∀ lat lng, (f lat lng).IsResultOrError) : (withCoordinates p a b f).IsResultOrError := by
  obtain ⟨-, h⟩ | ⟨lat, lng, -, -, ⟨-, h⟩ | ⟨-, h⟩⟩ := withCoordinates_cases p a b f <;> rw [h]
  · exact raise_isResultOrError (by decide)
  · exact raise_isResultOrError (by decide)
  · exact hf lat lng

theorem commandResponse_isResultOrError (a b : Word64) (i : Instr) : (commandResponse a b i).IsResultOrError := by
  cases i with
  | spread | squash | interleave | deinterleave => exact complete_ok_isResultOrError _ _
  | scale | encode => exact withCoordinates_isResultOrError fun _ _ => complete_ok_isResultOrError _ _
  | decode | neighbor | neighbors | child => exact withCode_isResultOrError (complete_ok_isResultOrError _ _)

theorem Response.IsResultOrError.status_and_zeroes {ρ : Response} (h : ρ.IsResultOrError) :
    ρ.status = 1 ∨
      ((ρ.status = 2 ∨ ρ.status = 3 ∨ ρ.status = 4 ∨ ρ.status = 5) ∧ ρ.precOut = 0 ∧
        ∀ k : Fin 8, ρ.r[k] = 0) := by
  obtain hok | ⟨e, he, rfl⟩ := h
  · exact .inl hok
  · refine .inr ⟨?_, rfl, raise_getElem e⟩
    cases e with
    | ok => exact absurd rfl he
    | invalidPrecision | invalidCoordinate | invalidCode | illegalCommand => decide

/-! ## The completing edge -/

theorem responseOf_of_next {c : Word32} {a b : Word64} {t : State}
    (h : completionEdge { State.reset with capCmd := c, capA := a, capB := b } = .next t) :
    responseOf c a b = some t.response := by
  simp only [responseOf, h]

/-- The completing edge writes `response(CMD, A, B)` of the captured command, which is a result or an error with
zeroes, and finishes (70_reset_and_hazards.md R122 to R124). -/
theorem completionEdge_eq_next (s : State) :
    ∃ ρ, responseOf s.capCmd s.capA s.capB = some ρ ∧ ρ.IsResultOrError ∧
      completionEdge s = .next (s.writeResponse ρ).finish := by
  cases hd : decode s.capCmd with
  | error e =>
    exact ⟨raise .illegalCommand, responseOf_of_next (completionEdge_of_error _ e hd),
      raise_isResultOrError (by decide), completionEdge_of_error s e hd⟩
  | ok i =>
    exact ⟨commandResponse s.capA s.capB i,
      responseOf_of_next (completionEdge_of_ok _ _ i hd (exec_eq_answer_commandResponse i _)),
      commandResponse_isResultOrError _ _ i, completionEdge_of_ok s _ i hd (exec_eq_answer_commandResponse i s)⟩

theorem responseOf_eq_some (c : Word32) (a b : Word64) : ∃ ρ, responseOf c a b = some ρ ∧ ρ.IsResultOrError := by
  obtain ⟨ρ, hρ, hshape, -⟩ := completionEdge_eq_next { State.reset with capCmd := c, capA := a, capB := b }
  exact ⟨ρ, hρ, hshape⟩

/-! ## One edge -/

section
variable {latency : Nat} {s : State}

theorem edge_of_accept_last (hr : s.sample.rst = false) (hb : s.busy = false) (hv : s.sample.cmdValid = true)
    (hl : latency = 1) : edge latency s = completionEdge (s.advance.capture s.sample) := by
  simp [edge, edgeWith, accepts, hr, hb, hv, hl]

theorem edge_of_accept (hr : s.sample.rst = false) (hb : s.busy = false) (hv : s.sample.cmdValid = true)
    (hl : 1 < latency) : edge latency s = .next ((s.advance.capture s.sample).beginBusy latency) := by
  simp [edge, edgeWith, accepts, hr, hb, hv, Nat.sub_ne_zero_of_lt hl]

theorem edge_of_count (hr : s.sample.rst = false) (hb : s.busy = true) (hc : 1 < s.cnt) :
    edge latency s = .next s.advance.countDown := by
  simp [edge, edgeWith, hr, hb, Nat.sub_ne_zero_of_lt hc]

theorem edge_of_last (hr : s.sample.rst = false) (hb : s.busy = true) (hc : s.cnt ≤ 1) :
    edge latency s = completionEdge s.advance := by
  simp [edge, edgeWith, hr, hb, Nat.sub_eq_zero_of_le hc]

end

/-- No edge hangs: there is neither a fault nor a refusal. -/
theorem edge_eq_next (latency : Nat) (s : State) : ∃ t, edge latency s = .next t := by
  have completes (u : State) : ∃ t, completionEdge u = .next t := by
    obtain ⟨_, -, -, h⟩ := completionEdge_eq_next u
    exact ⟨_, h⟩
  rw [edge]
  obtain ⟨-, h⟩ | ⟨-, -, -, h⟩ | ⟨-, -, -, h⟩ | ⟨-, -, -, ⟨-, h⟩ | ⟨-, h⟩⟩ | ⟨-, -, -, h⟩ :=
    edgeWith_cases latency s.sample s.advance <;> rw [h]
  · exact ⟨_, rfl⟩
  · exact completes _
  · exact ⟨_, rfl⟩
  · exact completes _
  · exact ⟨_, rfl⟩
  · exact ⟨_, rfl⟩

/-! ## Runs of edges -/

theorem edges_one (latency : Nat) (s : State) : edges latency 1 s = edge latency s := by
  obtain ⟨t, ht⟩ := edge_eq_next latency s
  simp only [edges, ht]

/-- A run extended by one edge at its end. -/
theorem edges_succ_of_next {latency n : Nat} {s t : State} (h : edges latency n s = .next t) :
    edges latency (n + 1) s = edge latency t := by
  induction n generalizing s with
  | zero =>
    cases h
    exact edges_one latency _
  | succ n ih =>
    obtain ⟨u, hu⟩ := edge_eq_next latency s
    simp only [edges, hu] at h ⊢
    exact ih h

theorem NoReset.sample_drop {xs : List PortIn} {n k : Nat} (h : NoReset (xs.take n)) (hk : k < n) :
    ((xs.drop k).headD PortIn.idle).rst = false := by
  rw [List.headD_eq_head?_getD, List.head?_drop]
  cases hx : xs[k]? with
  | none => rfl
  | some x => exact h x (List.mem_of_getElem? (i := k) (by rw [List.getElem?_take_of_lt hk, hx]))

/-- The block k edges after it was in the idle state s and accepted the command on its ports, the accepting edge
counted, while that command is in flight. -/
def State.inFlight (s : State) (latency k : Nat) : State :=
  { s with
    rspValid := false
    busy := true
    cnt := latency - k
    capCmd := s.sample.cmd
    capA := s.sample.opa
    capB := s.sample.opb
    inputs := s.inputs.drop k }

section
variable {latency : Nat} {s : State}

theorem inFlight_response (k : Nat) : (s.inFlight latency k).response = s.response := rfl

theorem inFlight_sample_rst {k : Nat} (hn : NoReset (s.inputs.take latency)) (hk : k < latency) :
    (s.inFlight latency k).sample.rst = false :=
  hn.sample_drop hk

theorem inFlight_advance_countDown (k : Nat) :
    (s.inFlight latency k).advance.countDown = s.inFlight latency (k + 1) := by
  simp [State.inFlight, State.advance, State.countDown, Nat.sub_sub]

/-- The edges from acceptance to the last but one count down and show nothing (70_reset_and_hazards.md R123,
R124). -/
theorem edges_eq_inFlight (hb : s.busy = false) (hv : s.sample.cmdValid = true) {k : Nat} (hk : 1 ≤ k)
    (hkl : k < latency) (hn : NoReset (s.inputs.take latency)) :
    edges latency k s = .next (s.inFlight latency k) := by
  induction k, hk using Nat.le_induction with
  | base =>
    rw [edges_one, edge_of_accept (hn.sample_drop (k := 0) (by omega)) hb hv hkl]
    simp [State.inFlight, State.advance, State.capture, State.beginBusy]
  | succ k hk ih =>
    have hcnt : 1 < (s.inFlight latency k).cnt := Nat.lt_sub_of_add_lt (by omega)
    rw [edges_succ_of_next (ih (by omega)), edge_of_count (inFlight_sample_rst hn (by omega)) rfl hcnt,
      inFlight_advance_countDown]

/-- Edge LATENCY, counting from the accepting edge, writes the response of the accepted command, at every LATENCY. -/
theorem edges_latency_eq_next (hl : 1 ≤ latency) (hb : s.busy = false) (hv : s.sample.cmdValid = true)
    (hn : NoReset (s.inputs.take latency)) :
    ∃ ρ, responseOf s.sample.cmd s.sample.opa s.sample.opb = some ρ ∧
      edges latency latency s = .next ((s.inFlight latency latency).writeResponse ρ).finish := by
  obtain rfl | hl := hl.eq_or_lt
  · obtain ⟨ρ, hρ, -, h⟩ := completionEdge_eq_next (s.advance.capture s.sample)
    refine ⟨ρ, hρ, ?_⟩
    rw [edges_one, edge_of_accept_last (hn.sample_drop (k := 0) one_pos) hb hv rfl, h]
    simp [State.inFlight, State.advance, State.capture, State.writeResponse, State.finish]
  · obtain ⟨k, rfl⟩ : ∃ k, latency = k + 1 := ⟨latency - 1, by omega⟩
    obtain ⟨ρ, hρ, -, h⟩ := completionEdge_eq_next (s.inFlight (k + 1) k).advance
    refine ⟨ρ, hρ, ?_⟩
    have hcnt : (s.inFlight (k + 1) k).cnt ≤ 1 := (Nat.add_sub_cancel_left k 1).le
    rw [edges_succ_of_next (edges_eq_inFlight hb hv (by omega) (by omega) hn),
      edge_of_last (inFlight_sample_rst hn (by omega)) rfl hcnt, h]
    simp [State.inFlight, State.advance, State.writeResponse, State.finish]

end

end Sys2Proof.Machine
end

section
/-! What a binary64 word denotes (00_scope.md R11), one rule for each of the four cases of the exponent field. -/

namespace Sys2Proof.Machine

theorem signedDyadic_eq (s : Bool) (n k : Nat) :
    signedDyadic s n k = (if s then -1 else 1) * (n : ℚ) / 2 ^ k := by
  rw [signedDyadic, Rat.mkRat_eq_div]
  cases s <;> simp

section
variable {w : Word64}

theorem f64val_of_nan (he : f64exponent w = 0x7FF) (hf : f64fraction w ≠ 0) : f64val w = .nan := by
  simp [f64val, he, hf]

theorem f64val_of_inf (he : f64exponent w = 0x7FF) (hf : f64fraction w = 0) : f64val w = .inf (f64sign w) := by
  simp [f64val, he, hf]

theorem f64val_of_subnormal (he : f64exponent w = 0) :
    f64val w = .finite ((if f64sign w then -1 else 1) * (f64fraction w : ℚ) * (2 : ℚ) ^ (-1074 : ℤ)) := by
  have hval : f64val w = .finite (signedDyadic (f64sign w) (f64fraction w) 1074) := by simp [f64val, he]
  have hpow : (2 : ℚ) ^ (-1074 : ℤ) = (2 ^ 1074)⁻¹ := zpow_neg_coe_of_pos 2 (by decide)
  rw [hval, signedDyadic_eq, hpow, div_eq_mul_inv]

theorem f64val_of_normal (h0 : f64exponent w ≠ 0) (h1 : f64exponent w ≠ 0x7FF) :
    f64val w = .finite ((if f64sign w then -1 else 1) * (2 ^ 52 + (f64fraction w : ℚ)) *
      (2 : ℚ) ^ ((f64exponent w : ℤ) - 1075)) := by
  have hval : f64val w =
      .finite (signedDyadic (f64sign w) ((2 ^ 52 + f64fraction w) * 2 ^ f64exponent w) 1075) := by
    simp only [f64val, h0, h1, if_false]
  have hpow : (2 : ℚ) ^ ((f64exponent w : ℤ) - 1075) = 2 ^ f64exponent w / 2 ^ 1075 := by
    rw [zpow_sub₀ two_ne_zero]
    rfl
  rw [hval, signedDyadic_eq, hpow]
  simp only [Nat.cast_mul, Nat.cast_add, Nat.cast_pow, Nat.cast_ofNat]
  rw [mul_div_assoc, mul_div_assoc, mul_assoc]

end

end Sys2Proof.Machine
end

section
/-! The statements of spec/00_scope.md: latency (R7, R19), totality (R18) and binary64 (R11). -/

namespace Sys2Proof.Proofs

open Sys2Proof.Machine

/-- Settles O16: at each LATENCY the run to the completing edge ends with `responseOf` of the sampled command, and
`responseOf` mentions neither the latency nor the state. -/
theorem responseDoesNotDependOnLatency : Obligations.ResponseDoesNotDependOnLatency := by
  refine ⟨⟨Nat.succ_pos _, fun _ => rfl⟩, ?_⟩
  intro l₁ l₂ s₁ s₂ hl₁ hl₂ hb₁ hb₂ hv hsample hn₁ hn₂
  refine ⟨fun k hk hkl => ⟨_, edges_eq_inFlight hb₁ hv hk hkl hn₁, rfl, inFlight_response k⟩, ?_⟩
  obtain ⟨ρ₁, hρ₁, h₁⟩ := edges_latency_eq_next hl₁ hb₁ hv hn₁
  obtain ⟨ρ₂, hρ₂, h₂⟩ := edges_latency_eq_next hl₂ hb₂ (hsample ▸ hv) hn₂
  have hρ : ρ₁ = ρ₂ := by
    rw [hsample, hρ₁] at hρ₂
    exact Option.some.inj hρ₂
  exact ⟨_, _, h₁, h₂, rfl, rfl, hρ⟩

/-- Settles O20, from the shape of the response that every completing edge writes. -/
theorem everyCommandGivesOneResponse : Obligations.EveryCommandGivesOneResponse := by
  refine ⟨edge_eq_next Config.latency, fun c a b => ?_⟩
  obtain ⟨ρ, hρ, hshape⟩ := responseOf_eq_some c a b
  exact ⟨ρ, hρ, hshape.status_and_zeroes⟩

/-- Settles O36, one rule of `f64val` for each of R11's four cases. -/
theorem binarySixtyFourLayout : Obligations.BinarySixtyFourLayout := by
  intro w s e f
  exact ⟨f64val_of_nan, f64val_of_inf, fun h0 h1 => f64val_of_normal h0.ne' h1.ne, f64val_of_subnormal⟩

end Sys2Proof.Proofs
end

section
/-! Rules for the statements about the state: what a decoded word's fields are, the response of each command word
(spec/70_reset_and_hazards.md R122), its PREC_OUT (spec/10_state.md R22), and the reset values (R30). -/

namespace Sys2Proof

/-- One row of the decoder: the word has its opcode and zero in the fields it does not use, or it is left to the rows
after it. -/
theorem decode_row_cases {row : Prop} [Decidable row] {zero : Bool} {i j : Instr} {rest : Except Illegal Instr}
    (h : (if row then requireZero zero i else rest) = .ok j) : (row ∧ zero = true ∧ i = j) ∨ rest = .ok j := by
  split at h
  · rw [requireZero] at h
    split at h
    · exact .inl ⟨‹row›, ‹_›, Except.ok.inj h⟩
    · cases h
  · exact .inr h

/-- A legal word's fields are those of the command it carries (30_encoding.md R48 to R54). -/
theorem fields_of_decode_eq_ok {w : Word32} {i : Instr} (h : decode w = .ok i) :
    rsvdField w = 0 ∧ (opField w).toNat = i.opcode ∧ (precField w).toNat = i.prec ∧ dirField w = i.dir ∧
      quadField w = i.quad := by
  rw [decode] at h
  by_cases hrsvd : rsvdField w = 0
  · rw [if_neg (not_not.2 hrsvd)] at h
    refine ⟨hrsvd, ?_⟩
    iterate 10
      obtain ⟨hop, hzero, rfl⟩ | h := decode_row_cases h
      · simp only [Bool.and_eq_true, decide_eq_true_eq] at hzero
        simp [Instr.opcode, Instr.prec, Instr.dir, Instr.quad, hop, hzero]
    cases h
  · rw [if_pos hrsvd] at h
    cases h

end Sys2Proof

namespace Sys2Proof.Machine

/-! ## The response of a command word -/

/-- The response of a legal word is that of its command; every other word is answered ILLEGAL_COMMAND. -/
theorem responseOf_cases (c : Word32) (a b : Word64) :
    (∃ e, decode c = .error e ∧ responseOf c a b = some (raise .illegalCommand)) ∨
      ∃ i, decode c = .ok i ∧ responseOf c a b = some (commandResponse a b i) := by
  cases hd : decode c with
  | error e => exact .inl ⟨e, rfl, responseOf_of_next (completionEdge_of_error _ e hd)⟩
  | ok i =>
    exact .inr ⟨i, rfl, responseOf_of_next (completionEdge_of_ok _ _ i hd (exec_eq_answer_commandResponse i _))⟩

/-! ## PREC_OUT -/

/-- If the response is a success, its PREC_OUT is a legal precision (10_state.md R22). -/
def Response.LegalPrecIfOk (ρ : Response) : Prop := ρ.status = 1 → 1 ≤ ρ.precOut.toNat ∧ ρ.precOut.toNat ≤ 32

theorem raise_legalPrecIfOk {e : Status} (he : e ≠ .ok) : (raise e).LegalPrecIfOk := by
  intro hok
  cases e with
  | ok => exact absurd rfl he
  | invalidPrecision | invalidCoordinate | invalidCode | illegalCommand => exact absurd hok (by decide)

theorem complete_legalPrecIfOk (st : Status) {n : Nat} (rs : List Word64) (hn : 1 ≤ n ∧ n ≤ 32) :
    (complete st n rs).LegalPrecIfOk := by
  intro _
  rw [complete_precOut, BitVec.toNat_ofNat, Nat.mod_eq_of_lt (by omega)]
  exact hn

theorem withCode_legalPrecIfOk {legal : Nat → Bool} {p : Nat} {c : Word64} {ρ : Response}
    (hρ : legal p = true → ρ.LegalPrecIfOk) : (withCode legal p c ρ).LegalPrecIfOk := by
  obtain ⟨-, h⟩ | ⟨-, -, h⟩ | ⟨hp, -, h⟩ := withCode_cases legal p c ρ <;> rw [h]
  · exact raise_legalPrecIfOk (by decide)
  · exact raise_legalPrecIfOk (by decide)
  · exact hρ hp

theorem withCoordinates_legalPrecIfOk {p : Nat} {a b : F64} {f : ℚ → ℚ → Response}
    (hf : precOk p = true → ∀ lat lng, (f lat lng).LegalPrecIfOk) : (withCoordinates p a b f).LegalPrecIfOk := by
  obtain ⟨-, h⟩ | ⟨lat, lng, -, -, ⟨-, h⟩ | ⟨hp, h⟩⟩ := withCoordinates_cases p a b f <;> rw [h]
  · exact raise_legalPrecIfOk (by decide)
  · exact raise_legalPrecIfOk (by decide)
  · exact hf hp lat lng

/-- SPREAD, SQUASH, INTERLEAVE and DEINTERLEAVE (OP 1 to 4, 30_encoding.md R49) have no precision. -/
theorem commandResponse_precOut_eq_zero (a b : Word64) {i : Instr} (hi : i.opcode ≤ 4) :
    (commandResponse a b i).precOut = 0 := by
  cases i with
  | spread | squash | interleave | deinterleave => rfl
  | scale | encode | decode | neighbor | neighbors | child => exact absurd hi (by simp [Instr.opcode])

/-- The commands of OP 5 to 10 succeed only at a legal precision, p or, for CHILD, p + 1 (43_subdivide.md R98). -/
theorem commandResponse_legalPrecIfOk (a b : Word64) {i : Instr} (hi : 5 ≤ i.opcode) :
    (commandResponse a b i).LegalPrecIfOk := by
  cases i with
  | spread | squash | interleave | deinterleave => exact absurd hi (by simp [Instr.opcode])
  | scale p | encode p =>
    exact withCoordinates_legalPrecIfOk fun hp _ _ => complete_legalPrecIfOk _ _ ((precOk_iff p).1 hp)
  | decode p | neighbor p | neighbors p =>
    exact withCode_legalPrecIfOk fun hp => complete_legalPrecIfOk _ _ ((precOk_iff p).1 hp)
  | child p =>
    refine withCode_legalPrecIfOk fun hp => complete_legalPrecIfOk _ _ ?_
    obtain ⟨-, hp31⟩ := (childPrecOk_iff p).1 hp
    omega

theorem Response.IsResultOrError.precOut_eq_zero {ρ : Response} (h : ρ.IsResultOrError) (hne : ρ.status ≠ 1) :
    ρ.precOut = 0 := by
  obtain hok | ⟨e, -, rfl⟩ := h
  · exact absurd hok hne
  · exact raise_precOut e

/-! ## Reset -/

theorem reset_atResetValues : State.reset.AtResetValues :=
  ⟨rfl, rfl, fun k => resultRegs_getElem [] k, rfl, rfl, rfl⟩

/-- A reset edge wins over everything else (70_reset_and_hazards.md R116, R117). -/
theorem edge_of_reset {s : State} (latency : Nat) (hr : s.sample.rst = true) :
    edge latency s = .next s.advance.resetEdge := by
  simp [edge, edgeWith, hr]

end Sys2Proof.Machine
end

section
/-! The statements of spec/10_state.md: PREC_OUT (R22) and the reset values (R30). -/

namespace Sys2Proof.Proofs

open Sys2Proof.Machine

/-- Settles O8: the reset values and, with BUSY = 0, `cmd_ready = 1`. -/
theorem resetStateHoldsResetValues : Obligations.ResetStateHoldsResetValues :=
  ⟨reset_atResetValues, State.outputs_cmdReady State.reset⟩

/-- Settles O25: a word that is not legal raises an error, and a legal one has the opcode of its command, which
decides whether a success carries a precision. -/
theorem precOutOfEachCompletion : Obligations.PrecOutOfEachCompletion := by
  refine ⟨fun c a b ρ hρ => ?_, fun latency s hr => ⟨_, edge_of_reset latency hr, State.resetEdge_precOut _⟩⟩
  obtain ⟨e, -, h⟩ | ⟨i, hd, h⟩ := responseOf_cases c a b <;> obtain rfl := Option.some.inj (hρ.symm.trans h)
  · exact ⟨fun _ => raise_precOut _, fun _ => raise_precOut _, fun _ => raise_legalPrecIfOk (by decide)⟩
  · obtain ⟨-, hop, -, -, -⟩ := fields_of_decode_eq_ok hd
    exact ⟨fun hle => commandResponse_precOut_eq_zero a b (hop ▸ hle),
      (commandResponse_isResultOrError a b i).precOut_eq_zero,
      fun hge => commandResponse_legalPrecIfOk a b (hop ▸ hge)⟩

end Sys2Proof.Proofs
end

section
/-! Rules for the statements about the command word: a masked word read field by field, the rows of the opcode table
(spec/30_encoding.md R57), the words that decode (R56), and the statuses of a legal word. -/

namespace Sys2Proof

/-! ## Fields -/

/-- The five fields together are the whole word (30_encoding.md R48). -/
theorem word_eq_iff_fields (v w : Word32) :
    v = w ↔ opField v = opField w ∧ precField v = precField w ∧ dirField v = dirField w ∧
      quadField v = quadField w ∧ rsvdField v = rsvdField w := by
  refine ⟨fun h => by simp [h], fun ⟨hop, hprec, hdir, hquad, hrsvd⟩ => ?_⟩
  simp only [opField, precField, dirField, quadField, rsvdField, ← BitVec.toNat_inj, BitVec.extractLsb'_toNat,
    Nat.shiftRight_eq_div_pow] at *
  omega

/-- A mask is applied to each field apart. -/
theorem and_eq_iff_fields (w mask pattern : Word32) :
    w &&& mask = pattern ↔ opField w &&& opField mask = opField pattern ∧
      precField w &&& precField mask = precField pattern ∧ dirField w &&& dirField mask = dirField pattern ∧
      quadField w &&& quadField mask = quadField pattern ∧ rsvdField w &&& rsvdField mask = rsvdField pattern := by
  rw [word_eq_iff_fields]
  simp only [opField, precField, dirField, quadField, rsvdField, BitVec.extractLsb'_and]

/-! ## Legal words -/

theorem legal_iff (w : Word32) :
    legal w = true ↔ rsvdField w = 0 ∧ (1 ≤ (opField w).toNat ∧ (opField w).toNat ≤ 0xA) ∧
      ((5 ≤ (opField w).toNat ∧ (opField w).toNat ≤ 0xA) ∨ precField w = 0) ∧
      ((opField w).toNat = 8 ∨ dirField w = 0) ∧ ((opField w).toNat = 0xA ∨ quadField w = 0) := by
  simp only [legal, Bool.and_eq_true, Bool.or_eq_true, decide_eq_true_eq, and_assoc]

/-- A word that decodes has the fields of its command, and those are legal. -/
theorem legal_of_decode_eq_ok {w : Word32} {i : Instr} (h : decode w = .ok i) : legal w = true := by
  obtain ⟨hrsvd, hop, hprec, hdir, hquad⟩ := fields_of_decode_eq_ok h
  rw [legal_iff, hop, hdir, hquad, ← BitVec.toNat_inj (x := precField w), hprec]
  cases i <;> simp [hrsvd, Instr.opcode, Instr.prec, Instr.dir, Instr.quad]

/-- A legal word meets the zero fields that its opcode's row of the decoder requires. -/
theorem decode_of_legal {w : Word32} (h : legal w = true) : ∃ i, decode w = .ok i := by
  obtain ⟨hrsvd, ⟨hlo, hhi⟩, hprec, hdir, hquad⟩ := (legal_iff w).1 h
  simp only [decode, requireZero]
  generalize (opField w).toNat = op at *
  interval_cases op <;> simp_all

/-- The decoder accepts exactly the words of R56's formula. -/
theorem exists_decode_eq_ok_iff_legal (w : Word32) : (∃ i, decode w = .ok i) ↔ legal w = true :=
  ⟨fun ⟨_, h⟩ => legal_of_decode_eq_ok h, decode_of_legal⟩

/-! ## The opcode table -/

/-- A row as the triple (mnemonic, match, mask). -/
def OpcodeRow.triple (row : OpcodeRow) : String × Word32 × Word32 := (row.mnemonic, row.pattern, row.mask)

theorem OpcodeRow.covers_iff (row : OpcodeRow) (w : Word32) : row.covers w = true ↔ w &&& row.mask = row.pattern :=
  decide_eq_true_iff

/-- No row masks a bit of OP, so a row's words have the OP of its match value. -/
theorem opField_of_covers {row : OpcodeRow} (hrow : row ∈ opcodeTable) {w : Word32} (h : row.covers w = true) :
    opField w = opField row.pattern := by
  have hmask : ∀ r ∈ opcodeTable, opField r.mask = BitVec.allOnes 4 := by decide
  obtain ⟨hop, -⟩ := (and_eq_iff_fields w row.mask row.pattern).1 ((row.covers_iff w).1 h)
  rwa [hmask row hrow, BitVec.and_allOnes] at hop

/-- "The rows are disjoint, because their OP values differ" (30_encoding.md R57). -/
theorem row_eq_of_covers {r₁ r₂ : OpcodeRow} (hr₁ : r₁ ∈ opcodeTable) (hr₂ : r₂ ∈ opcodeTable) {w : Word32}
    (h₁ : r₁.covers w = true) (h₂ : r₂.covers w = true) : r₁ = r₂ := by
  have hdiffer : ∀ r ∈ opcodeTable, ∀ r' ∈ opcodeTable, opField r.pattern = opField r'.pattern → r = r' := by decide
  exact hdiffer r₁ hr₁ r₂ hr₂ ((opField_of_covers hr₁ h₁).symm.trans (opField_of_covers hr₂ h₂))

/-- What the rows are made of (30_encoding.md R57): an OP in range, and zero under a full mask in every field that the
operation of that OP does not use. -/
theorem opcodeTable_shape : ∀ row ∈ opcodeTable,
    let op := (opField row.pattern).toNat
    (rsvdField row.mask = BitVec.allOnes 17 ∧ rsvdField row.pattern = 0) ∧ (1 ≤ op ∧ op ≤ 0xA) ∧
      ((5 ≤ op ∧ op ≤ 0xA) ∨ precField row.mask = BitVec.allOnes 6 ∧ precField row.pattern = 0) ∧
      (op = 8 ∨ dirField row.mask = BitVec.allOnes 3 ∧ dirField row.pattern = 0) ∧
      (op = 0xA ∨ quadField row.mask = BitVec.allOnes 2 ∧ quadField row.pattern = 0) := by
  decide

theorem eq_zero_of_and_allOnes {n : Nat} {field mask pattern : BitVec n} (h : field &&& mask = pattern)
    (hzero : mask = BitVec.allOnes n ∧ pattern = 0) : field = 0 := by
  obtain ⟨rfl, rfl⟩ := hzero
  rwa [BitVec.and_allOnes] at h

/-- The words of each row are legal. -/
theorem legal_of_covers {row : OpcodeRow} (hrow : row ∈ opcodeTable) {w : Word32} (h : row.covers w = true) :
    legal w = true := by
  obtain ⟨hrsvd, hop, hprec, hdir, hquad⟩ := opcodeTable_shape row hrow
  obtain ⟨-, hp, hd, hq, hr⟩ := (and_eq_iff_fields w row.mask row.pattern).1 ((row.covers_iff w).1 h)
  rw [legal_iff, opField_of_covers hrow h]
  exact ⟨eq_zero_of_and_allOnes hr hrsvd, hop, hprec.imp_right (eq_zero_of_and_allOnes hp),
    hdir.imp_right (eq_zero_of_and_allOnes hd), hquad.imp_right (eq_zero_of_and_allOnes hq)⟩

/-- The row of a command: the table lists the operations in the order of their OP, from 0x1 on. -/
def Instr.row (i : Instr) : OpcodeRow := opcodeTable[i.opcode - 1]'(by cases i <;> simp [opcodeTable, Instr.opcode])

theorem Instr.row_mem (i : Instr) : i.row ∈ opcodeTable := List.getElem_mem _

theorem Instr.row_mnemonic (i : Instr) : i.row.mnemonic = i.mnemonic := by cases i <;> rfl

/-- A word that decodes lies in the row of its command: the row fixes OP and asks zero of the fields that the command
does not use. -/
theorem row_covers_of_decode_eq_ok {w : Word32} {i : Instr} (h : decode w = .ok i) : i.row.covers w = true := by
  obtain ⟨hrsvd, hop, hprec, hdir, hquad⟩ := fields_of_decode_eq_ok h
  have hop : opField w = BitVec.ofNat 4 i.opcode := by rw [← hop, BitVec.ofNat_toNat, BitVec.setWidth_eq]
  have hprec : precField w = BitVec.ofNat 6 i.prec := by rw [← hprec, BitVec.ofNat_toNat, BitVec.setWidth_eq]
  rw [OpcodeRow.covers_iff, and_eq_iff_fields, hop, hprec, hdir, hquad, hrsvd]
  cases i <;> simp [Instr.row, opcodeTable, Instr.opcode, Instr.prec, Instr.dir, Instr.quad]
  all_goals simp [opField, precField, dirField, quadField, rsvdField]

/-- The words that decode are the words of the table's rows (30_encoding.md R57). -/
theorem exists_decode_eq_ok_iff_covers (w : Word32) :
    (∃ i, decode w = .ok i) ↔ ∃ row ∈ opcodeTable, row.covers w = true :=
  ⟨fun ⟨i, h⟩ => ⟨i.row, i.row_mem, row_covers_of_decode_eq_ok h⟩,
    fun ⟨_, hrow, h⟩ => decode_of_legal (legal_of_covers hrow h)⟩

end Sys2Proof

namespace Sys2Proof.Machine

/-! ## The status of a legal word -/

theorem withCode_status_ne_illegal {legal : Nat → Bool} {p : Nat} {c : Word64} {ρ : Response}
    (hρ : ρ.status ≠ 5) : (withCode legal p c ρ).status ≠ 5 := by
  obtain ⟨-, h⟩ | ⟨-, -, h⟩ | ⟨-, -, h⟩ := withCode_cases legal p c ρ <;> rw [h]
  · exact (by decide : Status.invalidPrecision.code ≠ 5)
  · exact (by decide : Status.invalidCode.code ≠ 5)
  · exact hρ

theorem withCoordinates_status_ne_illegal {p : Nat} {a b : F64} {f : ℚ → ℚ → Response}
    (hf : ∀ lat lng, (f lat lng).status ≠ 5) : (withCoordinates p a b f).status ≠ 5 := by
  obtain ⟨-, h⟩ | ⟨lat, lng, -, -, ⟨-, h⟩ | ⟨-, h⟩⟩ := withCoordinates_cases p a b f <;> rw [h]
  · exact (by decide : Status.invalidCoordinate.code ≠ 5)
  · exact (by decide : Status.invalidPrecision.code ≠ 5)
  · exact hf lat lng

/-- No command answers ILLEGAL_COMMAND itself: that status belongs to the command word alone (30_encoding.md R56). -/
theorem commandResponse_status_ne_illegal (a b : Word64) (i : Instr) : (commandResponse a b i).status ≠ 5 := by
  have hok : ∀ n rs, (complete .ok n rs).status ≠ 5 := fun _ _ => (by decide : Status.ok.code ≠ 5)
  cases i with
  | spread | squash | interleave | deinterleave => exact hok _ _
  | scale | encode => exact withCoordinates_status_ne_illegal fun _ _ => hok _ _
  | decode | neighbor | neighbors | child => exact withCode_status_ne_illegal (hok _ _)

/-- What the completing edge does beside the response does not show in it. -/
theorem shows_finish (t : State) (st : BitVec 3) (n : Nat) (rs : List Word64) :
    t.finish.shows st n rs ↔ t.shows st n rs := Iff.rfl

/-- The completing edge reports ILLEGAL_COMMAND with zeroes for a word that is not legal, and never for a legal
one. -/
theorem completionEdge_legal_cases (s : State) :
    ∃ t, completionEdge s = .next t ∧
      ((legal s.capCmd = true ∧ t.status ≠ 5) ∨ (¬legal s.capCmd = true ∧ t.shows 5 0 [])) := by
  cases hd : decode s.capCmd with
  | ok i =>
    exact ⟨_, completionEdge_of_ok s _ i hd (exec_eq_answer_commandResponse i s),
      .inl ⟨legal_of_decode_eq_ok hd, commandResponse_status_ne_illegal s.capA s.capB i⟩⟩
  | error e =>
    have hnot : ¬legal s.capCmd = true := by
      rw [← exists_decode_eq_ok_iff_legal, hd]
      rintro ⟨i, hi⟩
      cases hi
    exact ⟨_, completionEdge_of_error s e hd,
      .inr ⟨hnot, (shows_finish _ _ _ _).2 (shows_writeResponse_raise s .illegalCommand)⟩⟩

end Sys2Proof.Machine
end

section
/-! The statements of spec/30_encoding.md: legal words (R56, R57) and the encoding examples (R63). -/

namespace Sys2Proof.Proofs

open Sys2Proof.Machine

/-- Settles O3: a word that decodes lies in its command's row, a row's words are legal and so decode, and the OP values
of the rows keep them apart. -/
theorem legalWordsAreTheTableRows : Obligations.LegalWordsAreTheTableRows := by
  unfold Obligations.LegalWordsAreTheTableRows
  intro table w
  have htable : table = opcodeTable.map OpcodeRow.triple := rfl
  clear_value table
  subst htable
  simp only [List.mem_map, exists_exists_and_eq_and, forall_exists_index, and_imp, forall_apply_eq_imp_iff₂,
    OpcodeRow.triple, ← OpcodeRow.covers_iff]
  refine ⟨exists_decode_eq_ok_iff_covers w, fun r₁ hr₁ r₂ hr₂ h₁ h₂ => ?_, fun i hi row hrow h => ?_⟩
  · rw [row_eq_of_covers hr₁ hr₂ h₁ h₂]
  · rw [← i.row_mnemonic, row_eq_of_covers hrow i.row_mem h (row_covers_of_decode_eq_ok hi)]

/-- Settles O4: `legal` is R56's formula, and the completing edge reports ILLEGAL_COMMAND exactly where it fails. -/
theorem illegalWordsReportIllegalCommand : Obligations.IllegalWordsReportIllegalCommand := by
  intro s
  obtain ⟨t, ht, hcases⟩ := completionEdge_legal_cases s
  rw [legal_iff] at hcases
  obtain ⟨hlegal, hstatus⟩ | ⟨hnot, hshows⟩ := hcases
  · exact ⟨t, ht, fun _ => hstatus, fun hnot => absurd hlegal hnot⟩
  · exact ⟨t, ht, fun hlegal => absurd hlegal hnot, fun _ => hshows⟩

/-- Settles O6, by evaluating the assembler on each line and the decoder on each word: all are literals. -/
theorem encodingExamples : Obligations.EncodingExamples := by
  refine ⟨⟨?spread, ?_⟩, ⟨?interleave, ?_⟩, ⟨?encode, ?_⟩, ⟨?decode, ?_⟩, ⟨?neighborNE, ?_⟩, ⟨?neighborW, ?_⟩,
    ⟨?neighbors, ?_⟩, ⟨?childRT, ?_⟩, ⟨?childLB, ?_⟩, ⟨?encode33, ?_⟩⟩
  case spread | interleave | encode | decode | neighborNE | neighborW | neighbors | childRT | childLB | encode33 =>
    decide +kernel
  all_goals decide

end Sys2Proof.Proofs
end

section
/-! Rules for the bit interleaver: the one command word of an operation without fields, the commands that always
succeed, the bit maps as inverses (spec/40_interleave.md R72), and the networks round by round (R65, R67). -/

namespace Sys2Proof

/-! ## Command words -/

/-- No bit of a legal word is dropped: the fields of its command make up the word (30_encoding.md R48). -/
theorem encode_eq_of_decode_eq_ok {w : Word32} {i : Instr} (h : decode w = .ok i) : encode i = w := by
  obtain ⟨hrsvd, hop, hprec, hdir, hquad⟩ := fields_of_decode_eq_ok h
  obtain ⟨eop, eprec, edir, equad, ersvd⟩ := Laws.EncodedFields.of_prec_lt i (hprec ▸ (precField w).isLt)
  exact (word_eq_iff_fields _ _).2 ⟨BitVec.eq_of_toNat_eq (eop.trans hop.symm),
    BitVec.eq_of_toNat_eq (eprec.trans hprec.symm), edir.trans hdir.symm, equad.trans hquad.symm,
    ersvd.trans hrsvd.symm⟩

/-- A word that decodes to a command is the only word that does. -/
theorem decode_eq_ok_iff_eq {c : Word32} {i : Instr} (hc : decode c = .ok i) (w : Word32) :
    decode w = .ok i ↔ w = c := by
  refine ⟨fun h => ?_, fun h => h ▸ hc⟩
  rw [← encode_eq_of_decode_eq_ok h, encode_eq_of_decode_eq_ok hc]

end Sys2Proof

namespace Sys2Proof.Machine

/-! ## Commands that succeed -/

/-- A command whose response is a success shows its results and changes nothing else. -/
theorem exec_of_commandResponse_eq_ok {i : Instr} {s : State} {n : Nat} {rs : List Word64} (hn : n < 64)
    (h : commandResponse s.capA s.capB i = complete .ok n rs) :
    ∃ t, exec i s = .next t ∧ t.shows 1 n rs ∧ SameOutsideResponse s t :=
  ⟨s.writeResponse (complete .ok n rs), by rw [exec_eq_answer_commandResponse, h, answer],
    shows_writeResponse_complete s .ok n rs hn, sameOutsideResponse_writeResponse s _⟩

theorem State.shows.r0_eq {t : State} {st : BitVec 3} {n : Nat} {v : Word64} {rs : List Word64}
    (h : t.shows st n (v :: rs)) : t.r[0] = v := by
  obtain ⟨-, -, hr⟩ := h
  exact hr 0

theorem State.shows.r1_eq {t : State} {st : BitVec 3} {n : Nat} {v₀ v₁ : Word64} {rs : List Word64}
    (h : t.shows st n (v₀ :: v₁ :: rs)) : t.r[1] = v₁ := by
  obtain ⟨-, -, hr⟩ := h
  exact hr 1

/-! ## The bit maps -/

@[simp] theorem zext64_getLsbD (v : AxisWord) (i : Nat) : (zext64 v).getLsbD i = v.getLsbD i := by
  rw [zext64, BitVec.getLsbD_setWidth]
  by_cases hi : i < 64
  · simp [hi]
  · rw [BitVec.getLsbD_of_ge v i (by omega), Bool.and_false]

theorem extractLsb'_getLsbD_of_lt (w : Word64) {i : Nat} (hi : i < 32) :
    (w.extractLsb' 0 32).getLsbD i = w.getLsbD i := by
  rw [BitVec.getLsbD_extractLsb', Nat.zero_add, decide_eq_true hi, Bool.true_and]

/-- An index operand reads back an index that was zero-extended (30_encoding.md R55). -/
@[simp] theorem extractLsb'_zext64 (v : AxisWord) : (zext64 v).extractLsb' 0 32 = v := by
  apply BitVec.eq_of_getLsbD_eq
  intro i hi
  rw [extractLsb'_getLsbD_of_lt _ hi, zext64_getLsbD]

theorem spread_getLsbD_even (x : AxisWord) {i : Nat} (hi : i < 32) : (spread x).getLsbD (2 * i) = x.getLsbD i := by
  have hk : 2 * i < 64 := by omega
  rw [spread_getLsbD]
  simp [hk]

theorem spread_getLsbD_odd (x : AxisWord) (i : Nat) : (spread x).getLsbD (2 * i + 1) = false := by
  rw [spread_getLsbD]
  simp

theorem interleave_getLsbD_even (lat lng : AxisWord) {i : Nat} (hi : i < 32) :
    (interleave lat lng).getLsbD (2 * i) = lat.getLsbD i := by
  have hk : 2 * i < 64 := by omega
  rw [interleave_getLsbD]
  simp [hk]

theorem interleave_getLsbD_odd (lat lng : AxisWord) {i : Nat} (hi : i < 32) :
    (interleave lat lng).getLsbD (2 * i + 1) = lng.getLsbD i := by
  have hk : 2 * i + 1 < 64 ∧ (2 * i + 1) / 2 = i := by omega
  rw [interleave_getLsbD]
  simp [hk]

theorem latIdx_getLsbD (c : Word64) (i : Nat) : (latIdx c).getLsbD i = (decide (i < 32) && c.getLsbD (2 * i)) :=
  squash_getLsbD c i

/-- SQUASH undoes SPREAD (40_interleave.md R66). -/
theorem squash_spread (x : AxisWord) : squash (spread x) = x := by
  apply BitVec.eq_of_getLsbD_eq
  intro i hi
  rw [squash_getLsbD, spread_getLsbD_even x hi, decide_eq_true hi, Bool.true_and]

theorem latIdx_interleave (lat lng : AxisWord) : latIdx (interleave lat lng) = lat := by
  apply BitVec.eq_of_getLsbD_eq
  intro i hi
  rw [latIdx_getLsbD, interleave_getLsbD_even lat lng hi, decide_eq_true hi, Bool.true_and]

theorem lngIdx_interleave (lat lng : AxisWord) : lngIdx (interleave lat lng) = lng := by
  apply BitVec.eq_of_getLsbD_eq
  intro i hi
  rw [lngIdx_getLsbD, interleave_getLsbD_odd lat lng hi, decide_eq_true hi, Bool.true_and]

/-- A code is the interleave of its two indices (40_interleave.md R72): each position is even or odd. -/
theorem interleave_latIdx_lngIdx (c : Word64) : interleave (latIdx c) (lngIdx c) = c := by
  apply BitVec.eq_of_getLsbD_eq
  intro k hk
  obtain ⟨i, rfl | rfl⟩ := Nat.even_or_odd' k
  · have hi : i < 32 := by omega
    rw [interleave_getLsbD_even _ _ hi, latIdx_getLsbD, decide_eq_true hi, Bool.true_and]
  · have hi : i < 32 := by omega
    rw [interleave_getLsbD_odd _ _ hi, lngIdx_getLsbD, decide_eq_true hi, Bool.true_and]

/-- Two indices below `2^p` interleave to a code that is well formed at p. -/
theorem interleave_toNat_lt {lat lng : AxisWord} {p : Nat} (hlat : lat.toNat < 2 ^ p) (hlng : lng.toNat < 2 ^ p) :
    (interleave lat lng).toNat < 2 ^ (2 * p) := by
  rw [← codeOk_iff_toNat_lt, codeOk_iff]
  intro k hk
  have hpk : 2 ^ p ≤ 2 ^ (k / 2) := Nat.pow_le_pow_right two_pos (by omega)
  have hlat0 : lat.getLsbD (k / 2) = false := Nat.testBit_lt_two_pow (hlat.trans_le hpk)
  have hlng0 : lng.getLsbD (k / 2) = false := Nat.testBit_lt_two_pow (hlng.trans_le hpk)
  simp [interleave_getLsbD, hlat0, hlng0]

/-! ## The networks

Both networks move through the same words. With blocks of m bits, block q of x stands at position 2mq and the m
positions above it are zero: m = 32 is x zero-extended, m = 1 is `spread x`. A round of spread halves m, a round of
squash doubles it. -/

/-- t holds the blocks of m bits of x, each with a gap of m zeroes above it. -/
def BlocksSpread (m : Nat) (x : AxisWord) (t : Word64) : Prop :=
  ∀ q r, r < m → (m * q + r < 32 → t.getLsbD (2 * m * q + r) = x.getLsbD (m * q + r)) ∧
    t.getLsbD (2 * m * q + m + r) = false

/-- The mask that keeps the blocks of m bits and clears the gaps between them. -/
def IsBlockMask (m : Nat) (mask : Word64) : Prop := ∀ k < 64, mask.getLsbD k = decide (k % (2 * m) < m)

theorem IsBlockMask.getLsbD_block {m : Nat} {mask : Word64} (h : IsBlockMask m mask) {q r : Nat} (hr : r < m)
    (hk : m * q + r < 32) : mask.getLsbD (2 * m * q + r) = true := by
  have hlt : 2 * m * q + r < 64 := by linarith
  rw [h _ hlt, Nat.mul_add_mod, Nat.mod_eq_of_lt (by omega), decide_eq_true hr]

theorem IsBlockMask.getLsbD_gap {m : Nat} {mask : Word64} (h : IsBlockMask m mask) {q r : Nat} (hr : r < m) :
    mask.getLsbD (2 * m * q + m + r) = false := by
  by_cases hlt : 2 * m * q + m + r < 64
  · rw [h _ hlt, Nat.add_assoc, Nat.mul_add_mod, Nat.mod_eq_of_lt (by omega), decide_eq_false (by omega)]
  · exact BitVec.getLsbD_of_ge mask _ (by omega)

/-- A round of either network needs only the bits that its mask keeps. -/
theorem BlocksSpread.of_mask {m : Nat} {x : AxisWord} {t mask : Word64} (hmask : IsBlockMask m mask)
    (h : ∀ q r, r < m → m * q + r < 32 → t.getLsbD (2 * m * q + r) = x.getLsbD (m * q + r)) :
    BlocksSpread m x (t &&& mask) := by
  refine fun q r hr => ⟨fun hk => ?_, ?_⟩
  · rw [BitVec.getLsbD_and, h q r hr hk, hmask.getLsbD_block hr hk, Bool.and_true]
  · rw [BitVec.getLsbD_and, hmask.getLsbD_gap hr, Bool.and_false]

/-- A round of spread halves the blocks: the lower half of a block stays, which is an even block of the next stage, and
the upper half moves up by m into the gap and is an odd one. -/
theorem BlocksSpread.halve {m : Nat} {x : AxisWord} {t mask : Word64} (h : BlocksSpread (2 * m) x t)
    (hmask : IsBlockMask m mask) : BlocksSpread m x ((t ||| (t <<< m)) &&& mask) := by
  refine .of_mask hmask fun q r hr hk => ?_
  have hlt : 2 * m * q + r < 64 := by linarith
  rw [BitVec.getLsbD_or, BitVec.getLsbD_shiftLeft, decide_eq_true hlt, Bool.true_and]
  obtain ⟨j, rfl | rfl⟩ := Nat.even_or_odd' q
  · have hstays : t.getLsbD (2 * m * (2 * j) + r) = x.getLsbD (m * (2 * j) + r) := by
      obtain ⟨hblock, -⟩ := h j r (by omega)
      have e₁ : 2 * m * (2 * j) + r = 2 * (2 * m) * j + r := by ring
      have e₂ : m * (2 * j) + r = 2 * m * j + r := by ring
      rw [e₂] at hk
      rw [e₁, e₂, hblock hk]
    have hgap : (!decide (2 * m * (2 * j) + r < m) && t.getLsbD (2 * m * (2 * j) + r - m)) = false := by
      cases j with
      | zero => simp [hr]
      | succ j =>
        obtain ⟨-, hgap⟩ := h j (m + r) (by omega)
        have e : 2 * m * (2 * (j + 1)) + r = 2 * (2 * m) * j + 2 * m + (m + r) + m := by ring
        rw [e, Nat.add_sub_cancel, hgap, Bool.and_false]
    rw [hstays, hgap, Bool.or_false]
  · obtain ⟨-, hgap⟩ := h j r (by omega)
    obtain ⟨hblock, -⟩ := h j (m + r) (by omega)
    have e₁ : 2 * m * (2 * j + 1) + r = 2 * (2 * m) * j + 2 * m + r := by ring
    have e₂ : 2 * (2 * m) * j + 2 * m + r = 2 * (2 * m) * j + (m + r) + m := by ring
    have e₃ : m * (2 * j + 1) + r = 2 * m * j + (m + r) := by ring
    rw [e₃] at hk
    rw [e₁, hgap, Bool.false_or, e₂, Nat.add_sub_cancel, e₃, hblock hk,
      decide_eq_false (by omega), Bool.not_false, Bool.true_and]

/-- A round of squash doubles the blocks: an even block stays, and the odd one above it moves down by m onto the gap
between them. -/
theorem BlocksSpread.double {m : Nat} {x : AxisWord} {t mask : Word64} (h : BlocksSpread m x t)
    (hmask : IsBlockMask (2 * m) mask) : BlocksSpread (2 * m) x ((t ||| (t >>> m)) &&& mask) := by
  refine .of_mask hmask fun q r hr hk => ?_
  rw [BitVec.getLsbD_or, BitVec.getLsbD_ushiftRight]
  obtain hr | hr' := Nat.lt_or_ge r m
  · obtain ⟨hblock, hgap⟩ := h (2 * q) r hr
    have e₁ : 2 * (2 * m) * q + r = 2 * m * (2 * q) + r := by ring
    have e₂ : m + (2 * (2 * m) * q + r) = 2 * m * (2 * q) + m + r := by ring
    have e₃ : 2 * m * q + r = m * (2 * q) + r := by ring
    rw [e₃] at hk
    rw [e₂, hgap, Bool.or_false, e₁, e₃, hblock hk]
  · obtain ⟨r, rfl⟩ := Nat.exists_eq_add_of_le hr'
    obtain ⟨-, hgap⟩ := h (2 * q) r (by omega)
    obtain ⟨hblock, -⟩ := h (2 * q + 1) r (by omega)
    have e₁ : 2 * (2 * m) * q + (m + r) = 2 * m * (2 * q) + m + r := by ring
    have e₂ : m + (2 * (2 * m) * q + (m + r)) = 2 * m * (2 * q + 1) + r := by ring
    have e₃ : 2 * m * q + (m + r) = m * (2 * q + 1) + r := by ring
    rw [e₃] at hk
    rw [e₂, e₁, hgap, Bool.false_or, e₃, hblock hk]

/-- Blocks of 32 bits: the word itself, zero-extended. -/
theorem blocksSpread_setWidth (x : AxisWord) : BlocksSpread 32 x (x.setWidth 64) := by
  refine fun q r hr => ⟨fun hk => ?_, ?_⟩
  · obtain rfl : q = 0 := by omega
    exact zext64_getLsbD x _
  · rw [BitVec.getLsbD_setWidth, BitVec.getLsbD_of_ge x _ (by omega), Bool.and_false]

theorem BlocksSpread.setWidth_eq {x : AxisWord} {t : Word64} (h : BlocksSpread 32 x t) : t.setWidth 32 = x := by
  apply BitVec.eq_of_getLsbD_eq
  intro i hi
  obtain ⟨hblock, -⟩ := h 0 i hi
  rw [BitVec.getLsbD_setWidth, decide_eq_true hi, Bool.true_and]
  simpa using hblock (by omega)

/-- Blocks of one bit: the bit map of 40_interleave.md R64. -/
theorem BlocksSpread.eq_spread {x : AxisWord} {t : Word64} (h : BlocksSpread 1 x t) : t = spread x := by
  apply BitVec.eq_of_getLsbD_eq
  intro k hk
  obtain ⟨i, rfl | rfl⟩ := Nat.even_or_odd' k
  · have hi : i < 32 := by omega
    obtain ⟨hblock, -⟩ := h i 0 one_pos
    simpa [spread_getLsbD_even x hi] using hblock (by omega)
  · obtain ⟨-, hgap⟩ := h i 0 one_pos
    simpa [spread_getLsbD_odd] using hgap

/-- The initial mask of squash leaves the even bits, which are its one-bit blocks. -/
theorem blocksSpread_squash {c mask : Word64} (hmask : IsBlockMask 1 mask) :
    BlocksSpread 1 (squash c) (c &&& mask) := by
  refine .of_mask hmask fun q r hr hk => ?_
  obtain rfl : r = 0 := by omega
  have hq : q < 32 := by omega
  rw [squash_getLsbD]
  simp [hq]

theorem isBlockMask_1 : IsBlockMask 1 0x5555555555555555 := by unfold IsBlockMask; decide
theorem isBlockMask_2 : IsBlockMask 2 0x3333333333333333 := by unfold IsBlockMask; decide
theorem isBlockMask_4 : IsBlockMask 4 0x0F0F0F0F0F0F0F0F := by unfold IsBlockMask; decide
theorem isBlockMask_8 : IsBlockMask 8 0x00FF00FF00FF00FF := by unfold IsBlockMask; decide
theorem isBlockMask_16 : IsBlockMask 16 0x0000FFFF0000FFFF := by unfold IsBlockMask; decide
theorem isBlockMask_32 : IsBlockMask 32 0x00000000FFFFFFFF := by unfold IsBlockMask; decide

/-- The blocks of x are halved five times (40_interleave.md R65). -/
theorem spreadNetwork_eq_spread (x : AxisWord) : spreadNetwork x = spread x :=
  (blocksSpread_setWidth x).halve (m := 16) isBlockMask_16 |>.halve (m := 8) isBlockMask_8
    |>.halve (m := 4) isBlockMask_4 |>.halve (m := 2) isBlockMask_2 |>.halve (m := 1) isBlockMask_1 |>.eq_spread

/-- The one-bit blocks of `squash c` are doubled five times (40_interleave.md R67). -/
theorem squashNetwork_eq_squash (c : Word64) : squashNetwork c = squash c :=
  (blocksSpread_squash isBlockMask_1).double (m := 1) isBlockMask_2 |>.double (m := 2) isBlockMask_4
    |>.double (m := 4) isBlockMask_8 |>.double (m := 8) isBlockMask_16 |>.double (m := 16) isBlockMask_32
    |>.setWidth_eq

end Sys2Proof.Machine
end

section
/-! The statements of spec/40_interleave.md: the four commands (R68 to R71), the networks (R65, R67) and the inverse
laws (R72). -/

namespace Sys2Proof.Proofs

open Sys2Proof.Machine

/-- Settles O29: R0 is `spread` of the index in A. -/
theorem spreadResult : Obligations.SpreadResult := by
  refine ⟨decode_eq_ok_iff_eq (by decide), fun s => ?_⟩
  obtain ⟨t, ht, hshows, hframe⟩ := exec_of_commandResponse_eq_ok (i := .spread) (s := s) (by decide) rfl
  refine ⟨t, _, ht, hshows, hframe, fun i hi => ⟨?_, spread_getLsbD_odd _ i⟩⟩
  rw [spread_getLsbD_even _ hi, extractLsb'_getLsbD_of_lt _ hi]

/-- Settles O30: R0 is `squash` of A, and `squash` undoes `spread`. -/
theorem squashResult : Obligations.SquashResult := by
  refine ⟨decode_eq_ok_iff_eq (by decide), fun s => ?_, fun s => ?_⟩
  · obtain ⟨t, ht, hshows, hframe⟩ := exec_of_commandResponse_eq_ok (i := .squash) (s := s) (by decide) rfl
    exact ⟨t, _, ht, hshows, hframe, fun i => by rw [zext64_getLsbD, squash_getLsbD]⟩
  · obtain ⟨t, ht, hspread, -⟩ := exec_of_commandResponse_eq_ok (i := .spread) (s := s) (by decide) rfl
    obtain ⟨u, hu, hsquash, -⟩ :=
      exec_of_commandResponse_eq_ok (i := .squash) (s := { t with capA := t.r[0] }) (by decide) rfl
    refine ⟨t, u, ht, hu, ?_⟩
    rw [hsquash.r0_eq, hspread.r0_eq, squash_spread, zext64]

/-- Settles O31: R0 is the interleave of the indices in A and B, and it is as narrow as they are. -/
theorem interleaveResult : Obligations.InterleaveResult := by
  refine ⟨decode_eq_ok_iff_eq (by decide), fun s => ?_⟩
  obtain ⟨t, ht, hshows, hframe⟩ := exec_of_commandResponse_eq_ok (i := .interleave) (s := s) (by decide) rfl
  refine ⟨t, _, ht, hshows, hframe, fun i hi => ⟨?_, ?_⟩, fun p _ hlat hlng => interleave_toNat_lt hlat hlng⟩
  · rw [interleave_getLsbD_even _ _ hi, extractLsb'_getLsbD_of_lt _ hi]
  · rw [interleave_getLsbD_odd _ _ hi, extractLsb'_getLsbD_of_lt _ hi]

/-- Settles O32: R0 is the longitude index of A and R1 the latitude index. -/
theorem deinterleaveResult : Obligations.DeinterleaveResult := by
  refine ⟨decode_eq_ok_iff_eq (by decide), fun s => ?_⟩
  obtain ⟨t, ht, hshows, hframe⟩ := exec_of_commandResponse_eq_ok (i := .deinterleave) (s := s) (by decide) rfl
  refine ⟨t, _, _, ht, hshows, hframe, fun i => ⟨?_, ?_⟩⟩
  · rw [zext64_getLsbD, lngIdx_getLsbD]
  · rw [zext64_getLsbD, latIdx_getLsbD]

/-- Settles O33: the network equals `spread`, whose bits are those of R64. -/
theorem spreadNetworkComputesTheBitMap : Obligations.SpreadNetworkComputesTheBitMap := by
  intro x
  rw [spreadNetwork_eq_spread]
  exact ⟨rfl, fun i hi => ⟨spread_getLsbD_even x hi, spread_getLsbD_odd x i⟩⟩

/-- Settles O34: the network equals `squash`, whose bits are those of R66. -/
theorem squashNetworkComputesTheBitMap : Obligations.SquashNetworkComputesTheBitMap := by
  intro c
  rw [squashNetwork_eq_squash]
  refine ⟨rfl, fun i hi => ?_⟩
  rw [squash_getLsbD, decide_eq_true hi, Bool.true_and]

/-- Settles O35: the two indices are the parts of their interleave, and a code is the interleave of its two indices. -/
theorem interleaveInverse : Obligations.InterleaveInverse := by
  refine ⟨fun s => ?_, fun s => ?_⟩
  · obtain ⟨t, ht, hcode, -⟩ := exec_of_commandResponse_eq_ok (i := .interleave) (s := s) (by decide) rfl
    obtain ⟨u, hu, hindices, -⟩ :=
      exec_of_commandResponse_eq_ok (i := .deinterleave) (s := { t with capA := t.r[0] }) (by decide) rfl
    refine ⟨t, u, ht, hu, ?_, ?_⟩
    · rw [hindices.r0_eq, hcode.r0_eq, lngIdx_interleave, zext64]
    · rw [hindices.r1_eq, hcode.r0_eq, latIdx_interleave, zext64]
  · obtain ⟨t, ht, hindices, -⟩ := exec_of_commandResponse_eq_ok (i := .deinterleave) (s := s) (by decide) rfl
    obtain ⟨u, hu, hcode, -⟩ := exec_of_commandResponse_eq_ok (i := .interleave)
      (s := { t with capA := t.r[1], capB := t.r[0] }) (by decide) rfl
    refine ⟨t, u, ht, hu, ?_⟩
    rw [hcode.r0_eq, hindices.r0_eq, hindices.r1_eq, extractLsb'_zext64, extractLsb'_zext64,
      interleave_latIdx_lngIdx]

end Sys2Proof.Proofs
end

section
/-! `f64word` writes exactly (00_scope.md R10): the exponent and the significand it computes, the word it assembles from
them, and that the word of an integer over a power of two is exact and never -0.0. -/

namespace Sys2Proof.Machine

/-! ## Powers of two -/

theorem two_zpow_eq_div (k : ℤ) : (2 : ℚ) ^ k = 2 ^ k.toNat / 2 ^ (-k).toNat := by
  obtain ⟨n, rfl | rfl⟩ := k.eq_nat_or_neg
  · simp
  · simp [zpow_neg, div_eq_mul_inv]

theorem two_zpow_le_div_iff {d : Nat} (hd : 0 < d) (k : ℤ) (n : Nat) :
    (2 : ℚ) ^ k ≤ n / d ↔ d * 2 ^ k.toNat ≤ n * 2 ^ (-k).toNat := by
  rw [two_zpow_eq_div, div_le_div_iff₀ (by positivity) (by exact_mod_cast hd), mul_comm]
  norm_cast

theorem abs_eq_natAbs_num_div_den (x : ℚ) : |x| = (x.num.natAbs : ℚ) / x.den := by
  conv_lhs => rw [← Rat.num_div_den x]
  rw [abs_div, Nat.abs_cast, Nat.cast_natAbs, Int.cast_abs]

/-! ## The exponent and the significand -/

/-- `log2Floor x` is the exponent of the leading bit of a nonzero x. -/
theorem log2Floor_spec {x : ℚ} (hx : x ≠ 0) :
    (2 : ℚ) ^ log2Floor x ≤ |x| ∧ |x| < (2 : ℚ) ^ (log2Floor x + 1) := by
  have hn : x.num.natAbs ≠ 0 := Int.natAbs_ne_zero.2 (Rat.num_ne_zero.2 hx)
  rw [abs_eq_natAbs_num_div_den, log2Floor]
  generalize x.num.natAbs = n at hn ⊢
  have hd := x.den_pos
  generalize x.den = d at hd ⊢
  have hnlo : (2 : ℚ) ^ n.log2 ≤ n := by exact_mod_cast Nat.log2_self_le hn
  have hnhi : (n : ℚ) < 2 ^ (n.log2 + 1) := by exact_mod_cast Nat.lt_log2_self
  have hdlo : (2 : ℚ) ^ d.log2 ≤ d := by exact_mod_cast Nat.log2_self_le hd.ne'
  have hdhi : (d : ℚ) < 2 ^ (d.log2 + 1) := by exact_mod_cast Nat.lt_log2_self
  have hd0 : (0 : ℚ) < d := by exact_mod_cast hd
  have hupper : (n : ℚ) / d < (2 : ℚ) ^ ((n.log2 : ℤ) - d.log2 + 1) := by
    rw [sub_add_eq_add_sub, zpow_sub₀ two_ne_zero, zpow_natCast, ← Nat.cast_succ, zpow_natCast]
    exact div_lt_div₀ hnhi hdlo (by positivity) (by positivity)
  have hlower : (2 : ℚ) ^ ((n.log2 : ℤ) - d.log2 - 1) ≤ n / d := by
    rw [sub_sub, zpow_sub₀ two_ne_zero, zpow_natCast, ← Nat.cast_succ, zpow_natCast]
    exact div_le_div₀ (by positivity) hnlo hd0 hdhi.le
  split
  next htest => exact ⟨(two_zpow_le_div_iff hd _ n).2 htest, hupper⟩
  next htest =>
    rw [← two_zpow_le_div_iff hd, not_le] at htest
    exact ⟨hlower, by rwa [sub_add_cancel]⟩

/-- A magnitude of m units of `2^(k - 52)` is written without a remainder. -/
theorem f64word_eq_f64assemble {x : ℚ} (hx : x ≠ 0) {m : Nat} (hm : |x| = m * (2 : ℚ) ^ (unitExponent x - 52)) :
    f64word x = f64assemble (decide (x < 0)) (unitExponent x) m := by
  have hunits : x.num.natAbs * 2 ^ (52 - unitExponent x).toNat =
      m * (x.den * 2 ^ (unitExponent x - 52).toNat) := by
    have hd : (x.den : ℚ) ≠ 0 := by exact_mod_cast x.den_ne_zero
    rw [abs_eq_natAbs_num_div_den, two_zpow_eq_div, neg_sub, mul_div_assoc', div_eq_div_iff hd (by positivity)] at hm
    rw [mul_comm x.den, ← mul_assoc]
    exact_mod_cast hm
  have hpos : 0 < x.den * 2 ^ (unitExponent x - 52).toNat := Nat.mul_pos x.den_pos (by positivity)
  simp only [f64word, if_neg hx, inUnits]
  rw [hunits, Nat.mul_div_cancel _ hpos]

@[simp] theorem f64word_zero : f64word 0 = 0 := if_pos rfl

/-! ## The word -/

section
variable {neg : Bool} {e f : Nat}

/-- The fields of the word with sign `neg`, exponent field e and fraction f (00_scope.md R11). -/
theorem f64_fields_of_ofNat (he : e < 2 ^ 11) (hf : f < 2 ^ 52) {w : Word64}
    (hw : w = BitVec.ofNat 64 ((if neg then 2 ^ 63 else 0) + e * 2 ^ 52 + f)) :
    f64sign w = neg ∧ f64exponent w = e ∧ f64fraction w = f := by
  have hw' : w.toNat = (if neg then 2 ^ 63 else 0) + e * 2 ^ 52 + f := by
    rw [hw, BitVec.toNat_ofNat]
    split <;> omega
  refine ⟨?_, ?_, ?_⟩
  · rw [f64sign, BitVec.getLsbD, hw', Nat.testBit_eq_decide_div_mod_eq]
    cases neg <;> simp <;> omega
  · rw [f64exponent, BitVec.extractLsb'_toNat, hw', Nat.shiftRight_eq_div_pow]
    split <;> omega
  · rw [f64fraction, BitVec.extractLsb'_toNat, hw', Nat.shiftRight_eq_div_pow]
    split <;> omega

end

/-- A significand of 53 bits is written as a normal value: its leading bit carries into the exponent field. -/
theorem f64val_f64assemble (neg : Bool) {k : Int} {m : Nat} (hk : -1022 ≤ k) (hk' : k ≤ 1023) (hm : 2 ^ 52 ≤ m)
    (hm' : m < 2 ^ 53) :
    f64val (f64assemble neg k m) = .finite ((if neg then -1 else 1) * (m * (2 : ℚ) ^ (k - 52))) := by
  obtain ⟨f, rfl⟩ := Nat.exists_eq_add_of_le hm
  have hword : f64assemble neg k (2 ^ 52 + f) =
      BitVec.ofNat 64 ((if neg then 2 ^ 63 else 0) + ((k + 1022).toNat + 1) * 2 ^ 52 + f) := by
    rw [f64assemble, Nat.add_one_mul, add_assoc, add_assoc, add_assoc]
  obtain ⟨hsign, hexp, hfrac⟩ := f64_fields_of_ofNat (by omega) (by omega) hword
  have hexponent : (((k + 1022).toNat + 1 : Nat) : ℤ) - 1075 = k - 52 := by omega
  rw [f64val_of_normal (by omega) (by omega), hsign, hexp, hfrac, hexponent, mul_assoc]
  push_cast
  rfl

theorem f64val_posZero : f64val 0x0000000000000000 = .finite 0 := by decide +kernel

theorem f64val_negZero : f64val 0x8000000000000000 = .finite 0 := by decide +kernel

/-! ## Dyadic values -/

section
variable {x : ℚ} {z : ℤ} {j : Nat}

theorem abs_eq_natAbs_mul_zpow (hz : x * 2 ^ j = z) : |x| = z.natAbs * (2 : ℚ) ^ (-(j : ℤ)) := by
  rw [Nat.cast_natAbs, Int.cast_abs, ← hz, abs_mul, abs_of_pos (by positivity : (0 : ℚ) < 2 ^ j), mul_assoc,
    zpow_neg, zpow_natCast, mul_inv_cancel₀ (by positivity), mul_one]

/-- The leading bit of an integer of at most 53 bits over `2^j` stands between `2^(-j)` and `2^(52 - j)`. -/
theorem log2Floor_bounds (hx : x ≠ 0) (hz : x * 2 ^ j = z) (hbits : z.natAbs < 2 ^ 53) :
    -(j : ℤ) ≤ log2Floor x ∧ log2Floor x + j ≤ 52 := by
  obtain ⟨hlo, hhi⟩ := log2Floor_spec hx
  have habs := abs_eq_natAbs_mul_zpow hz
  have hz0 : z.natAbs ≠ 0 := by
    intro h0
    rw [h0, Nat.cast_zero, zero_mul, abs_eq_zero] at habs
    exact hx habs
  constructor
  · have hpow : (2 : ℚ) ^ (-(j : ℤ)) < (2 : ℚ) ^ (log2Floor x + 1) := by
      refine lt_of_le_of_lt ?_ hhi
      rw [habs]
      exact le_mul_of_one_le_left (by positivity) (by exact_mod_cast Nat.one_le_iff_ne_zero.2 hz0)
    have := (zpow_lt_zpow_iff_right₀ one_lt_two).1 hpow
    omega
  · have hpow : (2 : ℚ) ^ log2Floor x < (2 : ℚ) ^ (53 - (j : ℤ)) := by
      refine lt_of_le_of_lt hlo ?_
      rw [habs, sub_eq_add_neg, zpow_add₀ two_ne_zero]
      exact mul_lt_mul_of_pos_right (by exact_mod_cast hbits) (by positivity)
    have := (zpow_lt_zpow_iff_right₀ one_lt_two).1 hpow
    omega

/-- Such a value has a significand of exactly 53 bits in the unit that its leading bit decides. -/
theorem exists_significand (hx : x ≠ 0) (hz : x * 2 ^ j = z) (hbits : z.natAbs < 2 ^ 53) :
    ∃ m : Nat, 2 ^ 52 ≤ m ∧ m < 2 ^ 53 ∧ |x| = m * (2 : ℚ) ^ (log2Floor x - 52) := by
  obtain ⟨hlo, hhi⟩ := log2Floor_spec hx
  obtain ⟨-, hkj⟩ := log2Floor_bounds hx hz hbits
  generalize log2Floor x = k at *
  have hm : |x| = (z.natAbs * 2 ^ (52 - k - j).toNat : Nat) * (2 : ℚ) ^ (k - 52) := by
    rw [abs_eq_natAbs_mul_zpow hz, Nat.cast_mul, Nat.cast_pow, Nat.cast_ofNat, mul_assoc,
      ← zpow_natCast (2 : ℚ) (52 - k - j).toNat, ← zpow_add₀ two_ne_zero]
    congr 2
    omega
  refine ⟨_, ?_, ?_, hm⟩
  · have hle : (2 : ℚ) ^ (52 : ℤ) * 2 ^ (k - 52) ≤ |x| := by rwa [← zpow_add₀ two_ne_zero, add_sub_cancel]
    exact_mod_cast le_of_mul_le_mul_right (hm ▸ hle) (by positivity)
  · have hlt : |x| < (2 : ℚ) ^ (53 : ℤ) * 2 ^ (k - 52) := by
      rw [← zpow_add₀ two_ne_zero]
      convert hhi using 2
      ring
    exact_mod_cast lt_of_mul_lt_mul_right (hm ▸ hlt) (by positivity)

/-- `f64word` is exact on an integer of at most 53 bits over a power of two down to `2^(-1022)`. -/
theorem f64val_f64word_of_dyadic (hz : x * 2 ^ j = z) (hbits : z.natAbs < 2 ^ 53) (hj : j ≤ 1022) :
    f64val (f64word x) = .finite x := by
  obtain rfl | hx := eq_or_ne x 0
  · rw [f64word_zero]
    exact f64val_posZero
  obtain ⟨hlo, hhi⟩ := log2Floor_bounds hx hz hbits
  obtain ⟨m, hm, hm', habs⟩ := exists_significand hx hz hbits
  have hunit : unitExponent x = log2Floor x := max_eq_left (by omega)
  rw [f64word_eq_f64assemble hx (hunit ▸ habs), hunit, f64val_f64assemble _ (by omega) (by omega) hm hm', ← habs]
  congr 1
  obtain h | h := lt_or_ge x 0
  · simp [h, abs_of_neg h]
  · simp [not_lt.2 h, abs_of_nonneg h]

end

/-- Only a word of value 0 could be -0.0, and `f64word` writes 0 as +0.0 (41_scaler.md R82). -/
theorem f64word_ne_negZero {x : ℚ} (h : f64val (f64word x) = .finite x) : f64word x ≠ 0x8000000000000000 := by
  intro hneg
  rw [hneg, f64val_negZero] at h
  obtain rfl := F64.finite.inj h
  rw [f64word_zero] at hneg
  exact absurd hneg (by decide)

end Sys2Proof.Machine
end

section
/-! Rules for the scaler: the words of a command, its errors in their order (spec/41_scaler.md R76, R81), the axis index
(R73, R79), the cell bounds (R82, R84) and the cell of an encoded coordinate (R85). -/

namespace Sys2Proof

/-! ## Command words -/

/-- The decoder reads a well-formed command back from its own word (30_encoding.md R48). -/
theorem decode_encode {i : Instr} (hi : i.prec < 64) : decode (encode i) = .ok i := by
  obtain ⟨hop, hprec, hdir, hquad, hrsvd⟩ := Laws.EncodedFields.of_prec_lt i hi
  cases i with
  | spread | squash | interleave | deinterleave => decide
  | scale | encode | decode | neighbor | neighbors | child =>
    simp [decode, requireZero, hop, hprec, hdir, hquad, hrsvd, Instr.opcode, Instr.prec, Instr.dir, Instr.quad]

theorem decode_eq_ok_iff (w : Word32) (i : Instr) : decode w = .ok i ↔ i.prec < 64 ∧ w = encode i := by
  constructor
  · intro h
    obtain ⟨-, -, hprec, -, -⟩ := fields_of_decode_eq_ok h
    exact ⟨hprec ▸ (precField w).isLt, (encode_eq_of_decode_eq_ok h).symm⟩
  · rintro ⟨hp, rfl⟩
    exact decode_encode hp

/-- The words of an operation with a precision and no other field (30_encoding.md R50). -/
theorem decode_eq_ok_iff_of_prec_only {i : Instr} (hdir : i.dir = 0) (hquad : i.quad = 0) (w : Word32) :
    decode w = .ok i ↔ i.prec < 64 ∧ w = BitVec.ofNat 32 i.opcode ||| (BitVec.ofNat 32 i.prec <<< 4) := by
  rw [decode_eq_ok_iff, encode, hdir, hquad]
  simp

end Sys2Proof

namespace Sys2Proof.Machine

/-! ## Coordinates -/

/-- A NaN or an infinity is no coordinate (41_scaler.md R74). -/
theorem f64val_ne_finite_of_exponent_max {w : Word64} (hw : f64exponent w = 0x7FF) (v : ℚ) : f64val w ≠ .finite v := by
  by_cases hf : f64fraction w = 0
  · rw [f64val_of_inf hw hf]
    exact F64.noConfusion
  · rw [f64val_of_nan hw hf]
    exact F64.noConfusion

/-- A zero or a subnormal is in range of both axes (41_scaler.md R74). -/
theorem exists_coordinate_of_exponent_zero {w : Word64} (hw : f64exponent w = 0) :
    ∃ v, IsLatitude w v ∧ IsLongitude w v := by
  have hval := f64val_of_subnormal hw
  generalize hv : (if f64sign w then -1 else 1) * (f64fraction w : ℚ) * (2 : ℚ) ^ (-1074 : ℤ) = v at hval
  have hfraction : (f64fraction w : ℚ) ≤ 2 ^ (52 : ℤ) := by exact_mod_cast (w.extractLsb' 0 52).isLt.le
  have habs : |v| ≤ 1 := by
    calc |v| = f64fraction w * (2 : ℚ) ^ (-1074 : ℤ) := by
          rw [← hv, abs_mul, abs_mul, Nat.abs_cast, abs_of_pos (by positivity : (0 : ℚ) < 2 ^ (-1074 : ℤ))]
          split <;> simp
      _ ≤ 2 ^ (52 : ℤ) * (2 : ℚ) ^ (-1074 : ℤ) := mul_le_mul_of_nonneg_right hfraction (by positivity)
      _ = (2 : ℚ) ^ (-1022 : ℤ) := by rw [← zpow_add₀ two_ne_zero]; rfl
      _ ≤ 1 := zpow_le_one_of_nonpos₀ one_le_two (by decide)
  obtain ⟨hlo, hhi⟩ := abs_le.1 habs
  exact ⟨v, ⟨hval, by linarith, by linarith⟩, hval, by linarith, by linarith⟩

theorem isLatitude_zero {w : Word64} (hw : f64val w = .finite 0) : IsLatitude w 0 := ⟨hw, by norm_num, by norm_num⟩

theorem isLongitude_zero {w : Word64} (hw : f64val w = .finite 0) : IsLongitude w 0 := ⟨hw, by norm_num, by norm_num⟩

/-! ## Errors -/

/-- A command whose response is an error shows its status with zeroes and changes nothing else. -/
theorem exec_of_commandResponse_eq_raise {i : Instr} {s : State} {e : Status}
    (h : commandResponse s.capA s.capB i = raise e) :
    ∃ t, exec i s = .next t ∧ t.shows e.code 0 [] ∧ SameOutsideResponse s t :=
  ⟨s.writeResponse (raise e), by rw [exec_eq_answer_commandResponse, h, answer], shows_writeResponse_raise s e,
    sameOutsideResponse_writeResponse s _⟩

theorem precOk_eq_false {p : Nat} (hp : p < 1 ∨ 32 < p) : precOk p = false := by
  rw [← Bool.not_eq_true, precOk_iff]
  omega

theorem withCode_of_prec_illegal {legal : Nat → Bool} {p : Nat} (hp : legal p = false) (c : Word64) (ρ : Response) :
    withCode legal p c ρ = raise .invalidPrecision := by
  simp [withCode, hp]

theorem withCode_of_ill_formed {legal : Nat → Bool} {p : Nat} {c : Word64} (hp : legal p = true)
    (hc : ¬WellFormedCode c p) (ρ : Response) : withCode legal p c ρ = raise .invalidCode := by
  rw [wellFormedCode_iff] at hc
  simp [withCode, hp, hc]

theorem withCode_of_well_formed {legal : Nat → Bool} {p : Nat} {c : Word64} (hp : legal p = true)
    (hc : WellFormedCode c p) (ρ : Response) : withCode legal p c ρ = ρ := by
  rw [wellFormedCode_iff] at hc
  simp [withCode, hp, hc]

section
variable {a b : Word64} {p : Nat} {lat lng : ℚ}

/-- The coordinates are checked before the precision (41_scaler.md R76). -/
theorem withCoordinates_of_refused (h : (¬∃ lat, IsLatitude a lat) ∨ ¬∃ lng, IsLongitude b lng)
    (f : ℚ → ℚ → Response) : withCoordinates p (f64val a) (f64val b) f = raise .invalidCoordinate := by
  obtain ⟨-, hw⟩ | ⟨lat, lng, hlat, hlng, -⟩ := withCoordinates_cases p (f64val a) (f64val b) f
  · exact hw
  · rw [← isLatitude_iff] at hlat
    rw [← isLongitude_iff] at hlng
    exact absurd h (not_or.2 ⟨not_not.2 ⟨lat, hlat⟩, not_not.2 ⟨lng, hlng⟩⟩)

theorem withCoordinates_of_valid (hlat : IsLatitude a lat) (hlng : IsLongitude b lng) (f : ℚ → ℚ → Response) :
    withCoordinates p (f64val a) (f64val b) f = if precOk p then f lat lng else raise .invalidPrecision := by
  rw [isLatitude_iff] at hlat
  rw [isLongitude_iff] at hlng
  cases hp : precOk p <;> simp [withCoordinates, hlat, hlng, hp]

end

section
variable {i : Instr} {s : State} {p : Nat} {lat lng : ℚ} {f : ℚ → ℚ → Response}
  (hi : commandResponse s.capA s.capB i = withCoordinates p (f64val s.capA) (f64val s.capB) f)

include hi

theorem exec_of_refused_coordinates
    (h : (¬∃ lat, IsLatitude s.capA lat) ∨ ¬∃ lng, IsLongitude s.capB lng) :
    ∃ t, exec i s = .next t ∧ t.shows 3 0 [] ∧ SameOutsideResponse s t :=
  exec_of_commandResponse_eq_raise (hi.trans (withCoordinates_of_refused h f))

theorem exec_of_coordinates_prec_illegal
    (hlat : IsLatitude s.capA lat) (hlng : IsLongitude s.capB lng) (hp : p < 1 ∨ 32 < p) :
    ∃ t, exec i s = .next t ∧ t.shows 2 0 [] ∧ SameOutsideResponse s t :=
  exec_of_commandResponse_eq_raise (e := .invalidPrecision)
    (hi.trans ((withCoordinates_of_valid hlat hlng f).trans (by simp [precOk_eq_false hp])))

theorem exec_of_coordinates {rs : List Word64}
    (hlat : IsLatitude s.capA lat) (hlng : IsLongitude s.capB lng) (hp : 1 ≤ p) (hp' : p ≤ 32)
    (hf : f lat lng = complete .ok p rs) :
    ∃ t, exec i s = .next t ∧ t.shows 1 p rs ∧ SameOutsideResponse s t :=
  exec_of_commandResponse_eq_ok (by omega)
    (hi.trans ((withCoordinates_of_valid hlat hlng f).trans (by simp [(precOk_iff p).2 ⟨hp, hp'⟩, hf])))

end

/-! ## The axis index -/

section
variable {v lo width : ℚ} {p : Nat}

theorem axisIndex_eq_natFloor (v lo width : ℚ) (p : Nat) :
    axisIndex v lo width p = ⌊(v - lo) * 2 ^ p / width⌋₊ := by
  rw [← Int.floor_toNat, axisIndex, Nat.cast_pow, Nat.cast_ofNat]
  rfl

theorem cellBound_eq (lo width : ℚ) (p i : Nat) : cellBound lo width p i = lo + i * width / 2 ^ p := by
  rw [cellBound, Nat.cast_pow, Nat.cast_ofNat]

/-- A value is in the cell of its axis index, lower bound included and upper bound excluded (41_scaler.md R79). -/
theorem axisIndex_eq_iff (hwidth : 0 < width) (hlo : lo ≤ v) (i : Nat) :
    axisIndex v lo width p = i ↔ cellBound lo width p i ≤ v ∧ v < cellBound lo width p (i + 1) := by
  have hpow : (0 : ℚ) < 2 ^ p := by positivity
  have hscaled : 0 ≤ (v - lo) * 2 ^ p / width := div_nonneg (mul_nonneg (sub_nonneg.2 hlo) hpow.le) hwidth.le
  rw [axisIndex_eq_natFloor, Nat.floor_eq_iff hscaled, cellBound_eq, cellBound_eq, Nat.cast_succ, le_div_iff₀ hwidth,
    div_lt_iff₀ hwidth, ← le_sub_iff_add_le', ← sub_lt_iff_lt_add', div_le_iff₀ hpow, lt_div_iff₀ hpow]

/-- A value in the range of its axis has an index of p bits (41_scaler.md R73). -/
theorem axisIndex_lt (hwidth : 0 < width) (hlo : lo ≤ v) (hhi : v < lo + width) : axisIndex v lo width p < 2 ^ p := by
  have hpow : (0 : ℚ) < 2 ^ p := by positivity
  obtain ⟨hcell, -⟩ := (axisIndex_eq_iff hwidth hlo (axisIndex v lo width p)).1 rfl
  have hoffset : (axisIndex v lo width p : ℚ) * width / 2 ^ p < width := by
    rw [cellBound_eq] at hcell
    linarith
  rw [div_lt_iff₀ hpow, mul_comm width] at hoffset
  exact_mod_cast lt_of_mul_lt_mul_right hoffset hwidth.le

end

@[simp] theorem zext64_toNat (v : AxisWord) : (zext64 v).toNat = v.toNat := BitVec.toNat_setWidth_of_le (by decide)

theorem latRange_pos : 0 < Config.latRange := by norm_num [Config.latRange]

theorem lngRange_pos : 0 < Config.lngRange := by norm_num [Config.lngRange]

theorem IsLatitude.axisIndex_lt {w : Word64} {lat : ℚ} (h : IsLatitude w lat) (p : Nat) :
    axisIndex lat Config.latMin Config.latRange p < 2 ^ p := by
  obtain ⟨-, hlo, hhi⟩ := h
  exact Machine.axisIndex_lt latRange_pos hlo (by norm_num [Config.latMin, Config.latRange, hhi])

theorem IsLongitude.axisIndex_lt {w : Word64} {lng : ℚ} (h : IsLongitude w lng) (p : Nat) :
    axisIndex lng Config.lngMin Config.lngRange p < 2 ^ p := by
  obtain ⟨-, hlo, hhi⟩ := h
  exact Machine.axisIndex_lt lngRange_pos hlo (by norm_num [Config.lngMin, Config.lngRange, hhi])

theorem IsLatitude.latIndex_toNat {w : Word64} {lat : ℚ} (h : IsLatitude w lat) {p : Nat} (hp : p ≤ 32) :
    (latIndex lat p).toNat = axisIndex lat Config.latMin Config.latRange p := by
  rw [latIndex, BitVec.toNat_ofNat, Nat.mod_eq_of_lt]
  exact (h.axisIndex_lt p).trans_le (Nat.pow_le_pow_right two_pos hp)

theorem IsLongitude.lngIndex_toNat {w : Word64} {lng : ℚ} (h : IsLongitude w lng) {p : Nat} (hp : p ≤ 32) :
    (lngIndex lng p).toNat = axisIndex lng Config.lngMin Config.lngRange p := by
  rw [lngIndex, BitVec.toNat_ofNat, Nat.mod_eq_of_lt]
  exact (h.axisIndex_lt p).trans_le (Nat.pow_le_pow_right two_pos hp)

/-! ## The cell bounds -/

/-- A bound of a grid with whole-degree ends within ±180 is exactly a binary64 value (41_scaler.md R84): at p ≤ 32 it
is an integer of at most 40 bits over `2^32`. -/
theorem f64val_f64word_cellBound {lo width : ℚ} {l w : ℤ} (hlo : lo = l) (hwidth : width = w) (hl : -180 ≤ l)
    (hw : 0 ≤ w) (hlw : l + w ≤ 180) {p i : Nat} (hp : p ≤ 32) (hi : i ≤ 2 ^ p) :
    f64val (f64word (cellBound lo width p i)) = .finite (cellBound lo width p i) := by
  have hsplit : 2 ^ p * 2 ^ (32 - p) = 2 ^ 32 := by rw [← pow_add, Nat.add_sub_cancel' hp]
  have hz : cellBound lo width p i * 2 ^ 32 = (l * 2 ^ 32 + i * 2 ^ (32 - p) * w : ℤ) := by
    have hsplitQ : (2 : ℚ) ^ 32 = 2 ^ p * 2 ^ (32 - p) := by exact_mod_cast hsplit.symm
    have hoffset : (i : ℚ) * w / 2 ^ p * 2 ^ 32 = i * 2 ^ (32 - p) * w := by
      rw [hsplitQ]
      field_simp
    rw [cellBound_eq, hlo, hwidth, add_mul, hoffset]
    push_cast
    norm_num
  refine f64val_f64word_of_dyadic hz ?_ (by decide)
  have hstep : i * 2 ^ (32 - p) ≤ 2 ^ 32 := hsplit ▸ Nat.mul_le_mul_right _ hi
  have hstep' : (i : ℤ) * 2 ^ (32 - p) ≤ 2 ^ 32 := by exact_mod_cast hstep
  have hlower : 0 ≤ (i : ℤ) * 2 ^ (32 - p) * w := by positivity
  have hupper : (i : ℤ) * 2 ^ (32 - p) * w ≤ 2 ^ 32 * w := Int.mul_le_mul_of_nonneg_right hstep' hw
  omega

section
variable {p i : Nat}

theorem f64val_f64word_latBound (hp : p ≤ 32) (hi : i ≤ 2 ^ p) :
    f64val (f64word (latBound p i)) = .finite (latBound p i) :=
  f64val_f64word_cellBound (l := -90) (w := 180) (by norm_num [Config.latMin]) (by norm_num [Config.latRange])
    (by decide) (by decide) (by decide) hp hi

theorem f64val_f64word_lngBound (hp : p ≤ 32) (hi : i ≤ 2 ^ p) :
    f64val (f64word (lngBound p i)) = .finite (lngBound p i) :=
  f64val_f64word_cellBound (l := -180) (w := 360) (by norm_num [Config.lngMin]) (by norm_num [Config.lngRange])
    (by decide) (by decide) (by decide) hp hi

theorem latBound_eq (p i : Nat) : latBound p i = -90 + (i : ℚ) * 180 / 2 ^ p := cellBound_eq _ _ p i

theorem lngBound_eq (p i : Nat) : lngBound p i = -180 + (i : ℚ) * 360 / 2 ^ p := cellBound_eq _ _ p i

/-- Every cell of an axis is `width / 2^p` wide (41_scaler.md R86). -/
theorem cellBound_succ_sub (lo width : ℚ) (p i : Nat) :
    cellBound lo width p (i + 1) - cellBound lo width p i = width / 2 ^ p := by
  rw [cellBound_eq, cellBound_eq]
  push_cast
  ring

end

/-! ## DECODE -/

/-- The indices of a code that is well formed at p have p bits. -/
theorem WellFormedCode.latIdx_lt {c : Word64} {p : Nat} (h : WellFormedCode c p) : (latIdx c).toNat < 2 ^ p := by
  refine Nat.lt_pow_two_of_testBit _ fun i hi => ?_
  have hbit := latIdx_getLsbD c i
  rw [h (2 * i) (by omega), Bool.and_false] at hbit
  exact hbit

theorem WellFormedCode.lngIdx_lt {c : Word64} {p : Nat} (h : WellFormedCode c p) : (lngIdx c).toNat < 2 ^ p := by
  refine Nat.lt_pow_two_of_testBit _ fun i hi => ?_
  have hbit := lngIdx_getLsbD c i
  rw [h (2 * i + 1) (by omega), Bool.and_false] at hbit
  exact hbit

/-- ENCODE's code for a valid coordinate is well formed (41_scaler.md R78). -/
theorem wellFormedCode_interleave {a b : Word64} {lat lng : ℚ} (hlat : IsLatitude a lat) (hlng : IsLongitude b lng)
    {p : Nat} (hp : p ≤ 32) : WellFormedCode (interleave (latIndex lat p) (lngIndex lng p)) p := by
  rw [wellFormedCode_iff, codeOk_iff_toNat_lt]
  apply interleave_toNat_lt
  · exact hlat.latIndex_toNat hp ▸ hlat.axisIndex_lt p
  · exact hlng.lngIndex_toNat hp ▸ hlng.axisIndex_lt p

/-- DECODE of a well-formed code shows the words of the four bounds of its cell (41_scaler.md R83). -/
theorem exec_decode_of_well_formed {s : State} {p : Nat} (hp : 1 ≤ p) (hp' : p ≤ 32) (hc : WellFormedCode s.capA p) :
    ∃ t, exec (.decode p) s = .next t ∧ t.shows 1 p
      [f64word (latBound p (latIdx s.capA).toNat), f64word (latBound p ((latIdx s.capA).toNat + 1)),
        f64word (lngBound p (lngIdx s.capA).toNat), f64word (lngBound p ((lngIdx s.capA).toNat + 1))] ∧
      SameOutsideResponse s t :=
  exec_of_commandResponse_eq_ok (by omega) (withCode_of_well_formed ((precOk_iff p).2 ⟨hp, hp'⟩) hc _)

/-- The cell of ENCODE's code is the cell of the coordinate's two axis indices (41_scaler.md R85). -/
theorem encodedCell_of_coordinates {s : State} {p : Nat} {lat lng : ℚ} (hlat : IsLatitude s.capA lat)
    (hlng : IsLongitude s.capB lng) (hp : 1 ≤ p) (hp' : p ≤ 32) :
    EncodedCell s p
      (latBound p (axisIndex lat Config.latMin Config.latRange p))
      (latBound p (axisIndex lat Config.latMin Config.latRange p + 1))
      (lngBound p (axisIndex lng Config.lngMin Config.lngRange p))
      (lngBound p (axisIndex lng Config.lngMin Config.lngRange p + 1)) := by
  obtain ⟨t, ht, hshows, -⟩ := exec_of_coordinates (i := .encode p) rfl hlat hlng hp hp' rfl
  have hcode := hshows.r0_eq
  obtain ⟨u, hu, ⟨hstatus, -, hr⟩, -⟩ := exec_decode_of_well_formed (s := { t with capA := t.r[0] }) hp hp'
    (hcode ▸ wellFormedCode_interleave hlat hlng hp')
  have hla : (latIdx t.r[0]).toNat = axisIndex lat Config.latMin Config.latRange p := by
    rw [hcode, latIdx_interleave, hlat.latIndex_toNat hp']
  have hln : (lngIdx t.r[0]).toNat = axisIndex lng Config.lngMin Config.lngRange p := by
    rw [hcode, lngIdx_interleave, hlng.lngIndex_toNat hp']
  have hla' := hlat.axisIndex_lt p
  have hln' := hlng.axisIndex_lt p
  simp only [hla, hln] at hr
  refine ⟨t, u, ht, hu, hstatus, ?_, ?_, ?_, ?_⟩
  · exact (congrArg f64val (hr 0)).trans (f64val_f64word_latBound hp' hla'.le)
  · exact (congrArg f64val (hr 1)).trans (f64val_f64word_latBound hp' hla')
  · exact (congrArg f64val (hr 2)).trans (f64val_f64word_lngBound hp' hln'.le)
  · exact (congrArg f64val (hr 3)).trans (f64val_f64word_lngBound hp' hln')

end Sys2Proof.Machine
end

section
/-! The statements of spec/41_scaler.md: coordinates (R74), SCALE (R77), ENCODE (R78), the cells (R79, R86), DECODE
(R83) and its agreement with ENCODE (R85). -/

namespace Sys2Proof.Proofs

open Sys2Proof.Machine

/-- Settles O39: at a legal precision only the coordinates decide SCALE's status, a word of exponent 0x7FF has no value,
and one of exponent 0 has a value within ±1. -/
theorem coordinateValidity : Obligations.CoordinateValidity := by
  refine ⟨fun s t p hp hp' ht => ?_, fun w hw v => ?_, isLatitude_zero f64val_posZero, isLatitude_zero f64val_negZero,
    isLongitude_zero f64val_posZero, isLongitude_zero f64val_negZero, fun w hw => ?_⟩
  · by_cases hvalid : (∃ lat, IsLatitude s.capA lat) ∧ ∃ lng, IsLongitude s.capB lng
    · obtain ⟨⟨lat, hlat⟩, lng, hlng⟩ := id hvalid
      obtain ⟨t', ht', ⟨hstatus, -, -⟩, -⟩ := exec_of_coordinates (i := .scale p) rfl hlat hlng hp hp' rfl
      obtain rfl := Host.Outcome.next.inj (ht.symm.trans ht')
      exact ⟨iff_of_true hstatus hvalid, .inl hstatus⟩
    · obtain ⟨t', ht', ⟨hstatus, -, -⟩, -⟩ :=
        exec_of_refused_coordinates (i := .scale p) rfl (not_and_or.1 hvalid)
      obtain rfl := Host.Outcome.next.inj (ht.symm.trans ht')
      have hne : t.status ≠ 1 := hstatus ▸ by decide
      exact ⟨iff_of_false hne hvalid, .inr hstatus⟩
  · have hne := f64val_ne_finite_of_exponent_max (congrArg BitVec.toNat hw) v
    exact ⟨fun ⟨hval, _⟩ => hne hval, fun ⟨hval, _⟩ => hne hval⟩
  · exact exists_coordinate_of_exponent_zero (congrArg BitVec.toNat hw)

/-- Settles O40: the two errors of the coordinate commands in their order, and the axis indices as floors. -/
theorem scaleResult : Obligations.ScaleResult := by
  refine ⟨fun w p => decode_eq_ok_iff_of_prec_only rfl rfl w, fun s p h => exec_of_refused_coordinates rfl h,
    fun s p lat lng hlat hlng => ⟨exec_of_coordinates_prec_illegal rfl hlat hlng, fun hp hp' => ?_⟩⟩
  obtain ⟨t, ht, hshows, hframe⟩ := exec_of_coordinates (i := .scale p) rfl hlat hlng hp hp' rfl
  refine ⟨t, _, _, ht, hshows, hframe, ?_⟩
  rw [zext64_toNat, zext64_toNat, hlng.lngIndex_toNat hp', hlat.latIndex_toNat hp']
  exact ⟨axisIndex_eq_natFloor _ _ _ p, axisIndex_eq_natFloor _ _ _ p, hlng.axisIndex_lt p, hlat.axisIndex_lt p⟩

/-- Settles O41: the same errors, and the interleave of the two axis indices. -/
theorem encodeResult : Obligations.EncodeResult := by
  refine ⟨fun w p => decode_eq_ok_iff_of_prec_only rfl rfl w, fun s p h => exec_of_refused_coordinates rfl h,
    fun s p lat lng hlat hlng => ⟨exec_of_coordinates_prec_illegal rfl hlat hlng, fun hp hp' => ?_⟩⟩
  obtain ⟨t, ht, hshows, hframe⟩ := exec_of_coordinates (i := .encode p) rfl hlat hlng hp hp' rfl
  refine ⟨t, _, ht, hshows, hframe, wellFormedCode_interleave hlat hlng hp', fun i hi => ⟨?_, ?_⟩⟩
  · rw [interleave_getLsbD_even _ _ hi, BitVec.getLsbD, hlat.latIndex_toNat hp', axisIndex_eq_natFloor]
    rfl
  · rw [interleave_getLsbD_odd _ _ hi, BitVec.getLsbD, hlng.lngIndex_toNat hp', axisIndex_eq_natFloor]
    rfl

/-- Settles O43: the cell bounds are the values at which the axis index changes. -/
theorem halfOpenBoundary : Obligations.HalfOpenBoundary := by
  intro p i v _ _
  have hcell : ∀ {lo width : ℚ}, 0 < width → lo ≤ v → (axisIndex v lo width p = i ↔
      lo + (i : ℚ) * width / 2 ^ p ≤ v ∧ v < lo + ((i : ℚ) + 1) * width / 2 ^ p) := by
    intro lo width hwidth hlo
    rw [axisIndex_eq_iff hwidth hlo, cellBound_eq, cellBound_eq, Nat.cast_succ]
  exact ⟨fun hlo _ => hcell (by norm_num) hlo, fun hlo _ => hcell (by norm_num) hlo⟩

/-- Settles O44: the two errors of the code commands in their order, and the words of four exact bounds. -/
theorem decodeResult : Obligations.DecodeResult := by
  refine ⟨fun w p => decode_eq_ok_iff_of_prec_only rfl rfl w, fun s p => ⟨fun hp => ?_, fun hp hp' hc => ?_,
    fun hp hp' hc => ?_⟩⟩
  · exact exec_of_commandResponse_eq_raise (e := .invalidPrecision) (withCode_of_prec_illegal (precOk_eq_false hp) _ _)
  · exact exec_of_commandResponse_eq_raise (e := .invalidCode)
      (withCode_of_ill_formed ((precOk_iff p).2 ⟨hp, hp'⟩) hc _)
  · obtain ⟨t, ht, hshows, hframe⟩ := exec_decode_of_well_formed hp hp' hc
    have hla := f64val_f64word_latBound hp' hc.latIdx_lt.le
    have hla' := f64val_f64word_latBound hp' hc.latIdx_lt
    have hln := f64val_f64word_lngBound hp' hc.lngIdx_lt.le
    have hln' := f64val_f64word_lngBound hp' hc.lngIdx_lt
    refine ⟨t, _, _, _, _, ht, hshows, hframe, ?_, ?_, ?_, ?_, f64word_ne_negZero hla, f64word_ne_negZero hla',
      f64word_ne_negZero hln, f64word_ne_negZero hln'⟩
    · rw [hla, latBound_eq]; rfl
    · rw [hla', latBound_eq, Nat.cast_succ]; rfl
    · rw [hln, lngBound_eq]; rfl
    · rw [hln', lngBound_eq, Nat.cast_succ]; rfl

/-- Settles O45: the decoded cell is that of the coordinate's axis indices, which contains it (R79). -/
theorem roundTripContainment : Obligations.RoundTripContainment := by
  intro s p lat lng hlat hlng hp hp'
  obtain ⟨-, hlatlo, -⟩ := id hlat
  obtain ⟨-, hlnglo, -⟩ := id hlng
  obtain ⟨hlatcell, hlatcell'⟩ := (axisIndex_eq_iff (p := p) latRange_pos hlatlo _).1 rfl
  obtain ⟨hlngcell, hlngcell'⟩ := (axisIndex_eq_iff (p := p) lngRange_pos hlnglo _).1 rfl
  exact ⟨_, _, _, _, encodedCell_of_coordinates hlat hlng hp hp', hlatcell, hlatcell', hlngcell, hlngcell'⟩

/-- Settles O46: a cell's width depends on the precision alone. -/
theorem cellShrink : Obligations.CellShrink := by
  intro s p lat lng hlat hlng hp hp'
  refine ⟨_, _, _, _, _, _, _, _, encodedCell_of_coordinates hlat hlng hp (by omega),
    encodedCell_of_coordinates hlat hlng (by omega) (by omega), ?_, ?_, cellBound_succ_sub _ _ p _,
    cellBound_succ_sub _ _ p _⟩
  · rw [latBound, latBound, latBound, latBound, cellBound_succ_sub, cellBound_succ_sub, pow_succ, div_div]
  · rw [lngBound, lngBound, lngBound, lngBound, cellBound_succ_sub, cellBound_succ_sub, pow_succ, div_div]

end Sys2Proof.Proofs
end

section
/-! Rules for the neighbour calculator: the errors of the commands that take a code, the index arithmetic of
spec/42_neighbor.md R88 as moves of a code that add up, and the increments and decrements of an interleaved word that
its datapath makes (R89, R90). -/

namespace Sys2Proof.Machine

/-! ## Commands that take a code -/

section
variable {i : Instr} {s : State} {legal : Nat → Bool} {p : Nat} {ρ : Response}
  (hi : commandResponse s.capA s.capB i = withCode legal p s.capA ρ)

include hi

/-- The precision is checked before the code (41_scaler.md R81). -/
theorem exec_of_code_prec_illegal (hp : legal p = false) :
    ∃ t, exec i s = .next t ∧ t.shows 2 0 [] ∧ SameOutsideResponse s t :=
  exec_of_commandResponse_eq_raise (e := .invalidPrecision) (hi.trans (withCode_of_prec_illegal hp _ ρ))

theorem exec_of_code_ill_formed (hp : legal p = true) (hc : ¬WellFormedCode s.capA p) :
    ∃ t, exec i s = .next t ∧ t.shows 4 0 [] ∧ SameOutsideResponse s t :=
  exec_of_commandResponse_eq_raise (e := .invalidCode) (hi.trans (withCode_of_ill_formed hp hc ρ))

theorem exec_of_code {n : Nat} {rs : List Word64} (hp : legal p = true) (hc : WellFormedCode s.capA p) (hn : n < 64)
    (hρ : ρ = complete .ok n rs) :
    ∃ t, exec i s = .next t ∧ t.shows 1 n rs ∧ SameOutsideResponse s t :=
  exec_of_commandResponse_eq_ok hn (hi.trans ((withCode_of_well_formed hp hc ρ).trans hρ))

end

/-! ## Moves of one index -/

section
variable {p : Nat} (hp : p ≤ 32)

include hp

theorem moveIndex_toNat (idx : AxisWord) (δ : ℤ) : ((moveIndex idx δ p).toNat : ℤ) = (idx.toNat + δ) % 2 ^ p := by
  have hpow : (2 : ℤ) ^ p ≤ 2 ^ 32 := pow_le_pow_right₀ one_le_two hp
  have hlo := Int.emod_nonneg (idx.toNat + δ) (by positivity : (2 : ℤ) ^ p ≠ 0)
  have hhi := Int.emod_lt_of_pos (idx.toNat + δ) (by positivity : (0 : ℤ) < 2 ^ p)
  rw [moveIndex, BitVec.toNat_ofNat, Nat.cast_pow, Nat.cast_ofNat]
  omega

theorem moveIndex_lt (idx : AxisWord) (δ : ℤ) : (moveIndex idx δ p).toNat < 2 ^ p := by
  have h := Int.emod_lt_of_pos (idx.toNat + δ) (by positivity : (0 : ℤ) < 2 ^ p)
  rw [← moveIndex_toNat hp] at h
  exact_mod_cast h

theorem moveIndex_moveIndex (idx : AxisWord) (δ ε : ℤ) :
    moveIndex (moveIndex idx δ p) ε p = moveIndex idx (δ + ε) p := by
  rw [← BitVec.toNat_inj, ← Int.natCast_inj, moveIndex_toNat hp, moveIndex_toNat hp, moveIndex_toNat hp,
    Int.emod_add_emod, add_assoc]

/-- A move by a multiple of `2^p` wraps to where it began. -/
theorem moveIndex_eq_self {idx : AxisWord} {δ : ℤ} (hidx : idx.toNat < 2 ^ p) (hδ : 2 ^ p ∣ δ) :
    moveIndex idx δ p = idx := by
  obtain ⟨n, rfl⟩ := hδ
  have hidx' : (idx.toNat : ℤ) < 2 ^ p := by exact_mod_cast hidx
  rw [← BitVec.toNat_inj, ← Int.natCast_inj, moveIndex_toNat hp, Int.add_mul_emod_self_left,
    Int.emod_eq_of_lt (Int.natCast_nonneg _) hidx']

/-- The index arithmetic is the word arithmetic cut to p bits, since `2^p` divides `2^32`. -/
theorem moveIndex_getLsbD (idx : AxisWord) (δ : ℤ) (i : Nat) :
    (moveIndex idx δ p).getLsbD i = (decide (i < p) && (idx + BitVec.ofInt 32 δ).getLsbD i) := by
  have hsum : idx + BitVec.ofInt 32 δ = BitVec.ofInt 32 (idx.toNat + δ) := by
    rw [BitVec.ofInt_add, BitVec.ofInt_natCast, BitVec.ofNat_toNat, BitVec.setWidth_eq]
  have hdvd : (2 : ℤ) ^ p ∣ 2 ^ 32 := pow_dvd_pow 2 hp
  have hmod : (moveIndex idx δ p).toNat = (idx + BitVec.ofInt 32 δ).toNat % 2 ^ p := by
    rw [hsum, BitVec.toNat_ofInt, ← Int.natCast_inj, moveIndex_toNat hp, Nat.cast_pow, Nat.cast_ofNat, Int.natCast_emod,
      Int.toNat_of_nonneg (Int.emod_nonneg _ (by decide)), Nat.cast_pow, Nat.cast_ofNat, Int.emod_emod_of_dvd _ hdvd]
  rw [BitVec.getLsbD, hmod, Nat.testBit_mod_two_pow]
  rfl

end

/-! ## Moves of a code -/

/-- The code c with its latitude index moved by δlat and its longitude index by δlng modulo `2^p`; 42_neighbor.md R88
for moves of any length. -/
def moveCode (c : Word64) (p : Nat) (δlat δlng : ℤ) : Word64 :=
  interleave (moveIndex (latIdx c) δlat p) (moveIndex (lngIdx c) δlng p)

theorem neighbor_eq_moveCode (c : Word64) (p : Nat) (d : Direction) :
    neighbor c p d = moveCode c p (latDelta d) (lngDelta d) := rfl

@[simp] theorem latIdx_moveCode (c : Word64) (p : Nat) (δlat δlng : ℤ) :
    latIdx (moveCode c p δlat δlng) = moveIndex (latIdx c) δlat p := latIdx_interleave _ _

@[simp] theorem lngIdx_moveCode (c : Word64) (p : Nat) (δlat δlng : ℤ) :
    lngIdx (moveCode c p δlat δlng) = moveIndex (lngIdx c) δlng p := lngIdx_interleave _ _

section
variable {p : Nat} (hp : p ≤ 32)

include hp

theorem wellFormedCode_moveCode (c : Word64) (δlat δlng : ℤ) : WellFormedCode (moveCode c p δlat δlng) p := by
  rw [wellFormedCode_iff, codeOk_iff_toNat_lt]
  exact interleave_toNat_lt (moveIndex_lt hp _ _) (moveIndex_lt hp _ _)

theorem moveCode_moveCode (c : Word64) (δlat δlng εlat εlng : ℤ) :
    moveCode (moveCode c p δlat δlng) p εlat εlng = moveCode c p (δlat + εlat) (δlng + εlng) := by
  rw [moveCode, latIdx_moveCode, lngIdx_moveCode, moveIndex_moveIndex hp, moveIndex_moveIndex hp, moveCode]

section
variable {c : Word64} (hc : WellFormedCode c p)

include hc

theorem moveCode_eq_self {δlat δlng : ℤ} (hlat : 2 ^ p ∣ δlat) (hlng : 2 ^ p ∣ δlng) :
    moveCode c p δlat δlng = c := by
  rw [moveCode, moveIndex_eq_self hp hc.latIdx_lt hlat, moveIndex_eq_self hp hc.lngIdx_lt hlng,
    interleave_latIdx_lngIdx]

/-- A move of one axis keeps the other index (42_neighbor.md R95 law 2). -/
theorem lngIdx_moveCode_zero (δlat : ℤ) : lngIdx (moveCode c p δlat 0) = lngIdx c := by
  rw [lngIdx_moveCode, moveIndex_eq_self hp hc.lngIdx_lt (dvd_zero _)]

theorem latIdx_moveCode_zero (δlng : ℤ) : latIdx (moveCode c p 0 δlng) = latIdx c := by
  rw [latIdx_moveCode, moveIndex_eq_self hp hc.latIdx_lt (dvd_zero _)]

/-- Opposite moves cancel (42_neighbor.md R95 law 1). -/
theorem neighbor_neighbor_of_opposite {d e : Direction} (hlat : latDelta d + latDelta e = 0)
    (hlng : lngDelta d + lngDelta e = 0) : neighbor (neighbor c p d) p e = c := by
  rw [neighbor_eq_moveCode, neighbor_eq_moveCode, moveCode_moveCode hp, hlat, hlng,
    moveCode_eq_self hp hc (dvd_zero _) (dvd_zero _)]

theorem iterate_neighbor (d : Direction) (n : Nat) :
    (fun x => neighbor x p d)^[n] c = moveCode c p (n * latDelta d) (n * lngDelta d) := by
  induction n with
  | zero => rw [Function.iterate_zero_apply, moveCode_eq_self hp hc] <;> simp
  | succ n ih =>
    rw [Function.iterate_succ_apply', ih, neighbor_eq_moveCode, moveCode_moveCode hp, Nat.cast_succ, add_one_mul,
      add_one_mul]

end

end

/-- The model's direction moves by the row of R87's table. -/
theorem neighbor_eq_moveCode_of_mem {move : Direction × ℤ × ℤ} (h : move ∈ directionMoves) (c : Word64) (p : Nat) :
    neighbor c p move.1 = moveCode c p move.2.1 move.2.2 := by
  have htable : ∀ move ∈ directionMoves, latDelta move.1 = move.2.1 ∧ lngDelta move.1 = move.2.2 := by decide
  obtain ⟨hlat, hlng⟩ := htable move h
  rw [neighbor_eq_moveCode, hlat, hlng]

/-- The indices of a neighbour (42_neighbor.md R88). -/
theorem neighbor_indices {move : Direction × ℤ × ℤ} (h : move ∈ directionMoves) (c : Word64) {p : Nat} (hp : p ≤ 32) :
    ((latIdx (neighbor c p move.1)).toNat : ℤ) = ((latIdx c).toNat + move.2.1) % 2 ^ p ∧
      ((lngIdx (neighbor c p move.1)).toNat : ℤ) = ((lngIdx c).toNat + move.2.2) % 2 ^ p := by
  rw [neighbor_eq_moveCode_of_mem h, latIdx_moveCode, lngIdx_moveCode]
  exact ⟨moveIndex_toNat hp _ _, moveIndex_toNat hp _ _⟩

/-- NEIGHBOR of a well-formed code shows the neighbour (42_neighbor.md R93). -/
theorem exec_neighbor_of_well_formed {s : State} {p : Nat} (hp : 1 ≤ p) (hp' : p ≤ 32) (hc : WellFormedCode s.capA p)
    (d : Direction) :
    ∃ t, exec (.neighbor p d) s = .next t ∧ t.shows 1 p [neighbor s.capA p d] ∧ SameOutsideResponse s t :=
  exec_of_code rfl ((precOk_iff p).2 ⟨hp, hp'⟩) hc (by omega) rfl

end Sys2Proof.Machine
end

section
/-! The neighbour datapath of spec/42_neighbor.md R89 to R91: one axis of an interleaved word is incremented when the
other axis's positions are filled with ones, and decremented when they are filled with zeroes. -/

namespace Sys2Proof.Machine

/-! ## Increment and decrement -/

/-- The carry into position k when 1 is added to w. -/
def incrementCarry {n : Nat} (w : BitVec n) (k : Nat) : Bool := BitVec.carry k w 0 true

@[simp] theorem incrementCarry_zero {n : Nat} (w : BitVec n) : incrementCarry w 0 = true := BitVec.carry_zero

/-- The carry runs through the ones. -/
theorem incrementCarry_succ {n : Nat} (w : BitVec n) (k : Nat) :
    incrementCarry w (k + 1) = (w.getLsbD k && incrementCarry w k) := by
  simp [incrementCarry, BitVec.carry_succ]

theorem add_one_getLsbD {n : Nat} (w : BitVec n) {k : Nat} (hk : k < n) :
    (w + 1).getLsbD k = (w.getLsbD k ^^ incrementCarry w k) := by
  have hone : BitVec.setWidth n (BitVec.ofBool true) = 1 := BitVec.eq_of_toNat_eq (by simp)
  have h := BitVec.getLsbD_add_add_bool hk w 0#n true
  rwa [hone, BitVec.add_zero, BitVec.getLsbD_zero, Bool.false_xor] at h

/-! ## One axis of an interleaved word -/

/-- The low p bits of x stand at the positions 2i + b of w, and every other position below 2p holds `fill`. -/
structure AxisFilled (b p : Nat) (fill : Bool) (x : AxisWord) (w : Word64) : Prop where
  on_axis : ∀ i < p, w.getLsbD (2 * i + b) = x.getLsbD i
  off_axis : ∀ k < 2 * p, k % 2 ≠ b → w.getLsbD k = fill

namespace AxisFilled

variable {b p : Nat} {fill : Bool} {x : AxisWord} {w : Word64} (hb : b < 2) (hp : p ≤ 32)

include hb in
/-- The carry runs through the filled positions from each position of the axis to the next (42_neighbor.md R89). -/
theorem incrementCarry_eq (h : AxisFilled b p true x w) {i : Nat} (hi : i < p) :
    incrementCarry w (2 * i + b) = incrementCarry x i := by
  induction i with
  | zero =>
    obtain rfl | rfl : b = 0 ∨ b = 1 := by omega
    · rw [Nat.mul_zero, Nat.add_zero, incrementCarry_zero, incrementCarry_zero]
    · rw [Nat.mul_zero, incrementCarry_succ, h.off_axis 0 (by omega) (by decide), incrementCarry_zero,
        incrementCarry_zero, Bool.and_true]
  | succ i ih =>
    have hnext : 2 * (i + 1) + b = 2 * i + b + 1 + 1 := by omega
    rw [hnext, incrementCarry_succ, h.off_axis (2 * i + b + 1) (by omega) (by omega), Bool.true_and,
      incrementCarry_succ, h.on_axis i (by omega), ih (by omega), ← incrementCarry_succ]

include hb hp

theorem add_one (h : AxisFilled b p true x w) {i : Nat} (hi : i < p) :
    (w + 1).getLsbD (2 * i + b) = (x + 1).getLsbD i := by
  rw [add_one_getLsbD w (by omega), add_one_getLsbD x (by omega), h.on_axis i hi, h.incrementCarry_eq hb hi]

theorem complement (h : AxisFilled b p fill x w) : AxisFilled b p (!fill) (~~~x) (~~~w) := by
  constructor
  · intro i hi
    rw [BitVec.getLsbD_not, BitVec.getLsbD_not, h.on_axis i hi, decide_eq_true (by omega), decide_eq_true (by omega)]
  · intro k hk hkb
    rw [BitVec.getLsbD_not, h.off_axis k hk hkb, decide_eq_true (by omega), Bool.true_and]

/-- A borrow runs through zeroes as a carry runs through ones: w - 1 is the complement of the complement's
increment. -/
theorem sub_one (h : AxisFilled b p false x w) {i : Nat} (hi : i < p) :
    (w - 1).getLsbD (2 * i + b) = (x - 1).getLsbD i := by
  have hlt : 2 * i + b < 64 ∧ i < 32 := by omega
  have hadd := (h.complement hb hp).add_one hb hp hi
  have hnot : ∀ {n : Nat} (v : BitVec n), ~~~v + 1 = ~~~(v - 1) := fun _ => BitVec.not_sub_one_eq_not_add_one.symm
  rw [hnot, hnot, BitVec.getLsbD_not, BitVec.getLsbD_not] at hadd
  simpa [hlt] using hadd

end AxisFilled

/-- The word holds x at the positions of parity b and zeroes at the others. -/
abbrev OnAxis (b : Nat) (x : AxisWord) (y : Word64) : Prop := AxisFilled b 32 false x y

namespace OnAxis

variable {b : Nat} {x : AxisWord} {y : Word64}

theorem axisFilled_false (h : OnAxis b x y) {p : Nat} (hp : p ≤ 32) : AxisFilled b p false x y :=
  ⟨fun i hi => h.on_axis i (by omega), fun k hk => h.off_axis k (by omega)⟩

theorem unique (hb : b < 2) {u v : Word64} (hu : OnAxis b x u) (hv : OnAxis b x v) : u = v := by
  apply BitVec.eq_of_getLsbD_eq
  intro k hk
  by_cases hkb : k % 2 = b
  · have hposition : k = 2 * (k / 2) + b := by omega
    rw [hposition, hu.on_axis _ (by omega), hv.on_axis _ (by omega)]
  · rw [hu.off_axis k hk hkb, hv.off_axis k hk hkb]

/-- The two axes of a code together are the code (40_interleave.md R70). -/
theorem or_eq_interleave {lat lng : AxisWord} {u v : Word64} (hu : OnAxis 1 lng u) (hv : OnAxis 0 lat v) :
    u ||| v = interleave lat lng := by
  apply BitVec.eq_of_getLsbD_eq
  intro k hk
  obtain ⟨i, rfl | rfl⟩ := Nat.even_or_odd' k
  · have hi : i < 32 := by omega
    have hlat : v.getLsbD (2 * i) = lat.getLsbD i := hv.on_axis i hi
    rw [BitVec.getLsbD_or, hu.off_axis _ hk (by omega), hlat, Bool.false_or, interleave_getLsbD_even _ _ hi]
  · have hi : i < 32 := by omega
    rw [BitVec.getLsbD_or, hu.on_axis i hi, hv.off_axis _ hk (by omega), Bool.or_false,
      interleave_getLsbD_odd _ _ hi]

end OnAxis

/-! ## The masks -/

/-- The mask keeps the positions of parity b below 2p. -/
def IsAxisMask (b p : Nat) (mask : Word64) : Prop :=
  ∀ k < 64, mask.getLsbD k = (decide (k % 2 = b) && decide (k < 2 * p))

theorem latBits_getLsbD : ∀ k < 64, latBits.getLsbD k = decide (k % 2 = 0) := by decide

theorem lngBits_getLsbD : ∀ k < 64, lngBits.getLsbD k = decide (k % 2 = 1) := by decide

theorem active_getLsbD (p : Nat) {k : Nat} (hk : k < 64) : (active p).getLsbD k = decide (k < 2 * p) := by
  rw [active, BitVec.getLsbD_ofNat, Nat.testBit_two_pow_sub_one, decide_eq_true hk, Bool.true_and]

theorem isAxisMask_latAct (p : Nat) : IsAxisMask 0 p (latAct p) := fun k hk => by
  rw [latAct, BitVec.getLsbD_and, latBits_getLsbD k hk, active_getLsbD p hk]

theorem isAxisMask_lngAct (p : Nat) : IsAxisMask 1 p (lngAct p) := fun k hk => by
  rw [lngAct, BitVec.getLsbD_and, lngBits_getLsbD k hk, active_getLsbD p hk]

theorem onAxis_and_latBits (c : Word64) : OnAxis 0 (latIdx c) (c &&& latBits) := by
  constructor
  · intro i hi
    rw [BitVec.getLsbD_and, latBits_getLsbD _ (by omega), decide_eq_true (by omega), Bool.and_true, latIdx_getLsbD,
      decide_eq_true hi, Bool.true_and, Nat.add_zero]
  · intro k hk hodd
    rw [BitVec.getLsbD_and, latBits_getLsbD k hk, decide_eq_false hodd, Bool.and_false]

theorem onAxis_and_lngBits (c : Word64) : OnAxis 1 (lngIdx c) (c &&& lngBits) := by
  constructor
  · intro i hi
    rw [BitVec.getLsbD_and, lngBits_getLsbD _ (by omega), decide_eq_true (by omega), Bool.and_true, lngIdx_getLsbD,
      decide_eq_true hi, Bool.true_and]
  · intro k hk heven
    rw [BitVec.getLsbD_and, lngBits_getLsbD k hk, decide_eq_false heven, Bool.and_false]

theorem and_latBits_eq_of_latIdx_eq {c d : Word64} (h : latIdx c = latIdx d) : c &&& latBits = d &&& latBits :=
  (onAxis_and_latBits c).unique (by decide) (h ▸ onAxis_and_latBits d)

theorem and_lngBits_eq_of_lngIdx_eq {c d : Word64} (h : lngIdx c = lngIdx d) : c &&& lngBits = d &&& lngBits :=
  (onAxis_and_lngBits c).unique (by decide) (h ▸ onAxis_and_lngBits d)

/-! ## The datapath -/

theorem moveField_one (y zz own : Word64) : moveField y zz own 1 = ((y ||| zz) + 1) &&& own := if_pos rfl

theorem moveField_neg_one (y zz own : Word64) : moveField y zz own (-1) = ((y ||| zz) - (zz + 1)) &&& own := by
  rw [moveField, if_neg (by decide), if_pos rfl]

theorem moveField_zero (y zz own : Word64) : moveField y zz own 0 = y := by
  rw [moveField, if_neg (by decide), if_neg (by decide)]

section
variable {b b' p : Nat} {x : AxisWord} {y zz own : Word64} (hbb : b + b' = 1) (hp : p ≤ 32)

include hbb

/-- Subtracting zz + 1 "takes the zz back out and subtracts 1" (42_neighbor.md R89). -/
theorem OnAxis.or_mask_sub (h : OnAxis b x y) (hzz : IsAxisMask b' p zz) : (y ||| zz) - (zz + 1) = y - 1 := by
  have hdisjoint : y &&& zz = 0#64 := by
    apply BitVec.eq_of_getLsbD_eq
    intro k hk
    rw [BitVec.getLsbD_and, BitVec.getLsbD_zero]
    by_cases hkb : k % 2 = b
    · rw [hzz k hk, decide_eq_false (by omega), Bool.false_and, Bool.and_false]
    · rw [h.off_axis k hk hkb, Bool.false_and]
  rw [← BitVec.add_eq_or_of_and_eq_zero y zz hdisjoint]
  ring

include hp

/-- With the other axis's mask OR-ed in, every position off the axis is a one. -/
theorem OnAxis.or_mask (h : OnAxis b x y) (hzz : IsAxisMask b' p zz) : AxisFilled b p true x (y ||| zz) := by
  constructor
  · intro i hi
    rw [BitVec.getLsbD_or, h.on_axis i (by omega), hzz _ (by omega), decide_eq_false (by omega), Bool.false_and,
      Bool.or_false]
  · intro k hk hkb
    rw [BitVec.getLsbD_or, hzz k (by omega), decide_eq_true (by omega), decide_eq_true hk, Bool.and_true,
      Bool.or_true]

/-- The last mask is the wrap modulo `2^p` (42_neighbor.md R89). -/
theorem onAxis_and_mask {w : Word64} {v : AxisWord} {δ : ℤ} (hown : IsAxisMask b p own)
    (hv : x + BitVec.ofInt 32 δ = v) (hw : ∀ i < p, w.getLsbD (2 * i + b) = v.getLsbD i) :
    OnAxis b (moveIndex x δ p) (w &&& own) := by
  constructor
  · intro i hi
    have hparity : (2 * i + b) % 2 = b := by omega
    have hbelow : decide (2 * i + b < 2 * p) = decide (i < p) := decide_eq_decide.2 (by omega)
    rw [BitVec.getLsbD_and, hown _ (by omega), moveIndex_getLsbD hp, hv, decide_eq_true hparity, Bool.true_and,
      hbelow]
    by_cases hip : i < p
    · rw [hw i hip, Bool.and_comm]
    · rw [decide_eq_false hip, Bool.and_false, Bool.false_and]
  · intro k hk hkb
    rw [BitVec.getLsbD_and, hown k hk, decide_eq_false hkb, Bool.false_and, Bool.and_false]

/-- One axis move of the datapath is the index arithmetic on that axis (42_neighbor.md R89, R90). -/
theorem onAxis_moveField {δ : ℤ} (hδ : δ = 1 ∨ δ = -1 ∨ δ = 0) (hx : x.toNat < 2 ^ p) (hy : OnAxis b x y)
    (hzz : IsAxisMask b' p zz) (hown : IsAxisMask b p own) : OnAxis b (moveIndex x δ p) (moveField y zz own δ) := by
  have hb : b < 2 := by omega
  have hone : BitVec.ofInt 32 1 = 1 := by decide
  have hneg : x + BitVec.ofInt 32 (-1) = x - 1 := by
    rw [sub_eq_add_neg]
    rfl
  obtain rfl | rfl | rfl := hδ
  · rw [moveField_one]
    exact onAxis_and_mask hbb hp hown (congrArg _ hone) fun i hi => (hy.or_mask hbb hp hzz).add_one hb hp hi
  · rw [moveField_neg_one, hy.or_mask_sub hbb hzz]
    exact onAxis_and_mask hbb hp hown hneg fun i hi => (hy.axisFilled_false hp).sub_one hb hp hi
  · rw [moveField_zero, moveIndex_eq_self hp hx (dvd_zero _)]
    exact hy

end

section
variable {c : Word64} {p : Nat} {δ : ℤ} (hp : p ≤ 32) (hc : WellFormedCode c p) (hδ : δ = 1 ∨ δ = -1 ∨ δ = 0)

include hp hc hδ

theorem moveLat_eq_moveCode : moveLat c p δ = moveCode c p δ 0 := by
  rw [moveCode, moveIndex_eq_self hp hc.lngIdx_lt (dvd_zero _)]
  exact (onAxis_and_lngBits c).or_eq_interleave (onAxis_moveField (b' := 1) rfl hp hδ hc.latIdx_lt
    (onAxis_and_latBits c) (isAxisMask_lngAct p) (isAxisMask_latAct p))

theorem moveLng_eq_moveCode : moveLng c p δ = moveCode c p 0 δ := by
  rw [moveCode, moveIndex_eq_self hp hc.latIdx_lt (dvd_zero _)]
  exact (onAxis_moveField (b' := 0) rfl hp hδ hc.lngIdx_lt (onAxis_and_lngBits c) (isAxisMask_latAct p)
    (isAxisMask_lngAct p)).or_eq_interleave (onAxis_and_latBits c)

end

end Sys2Proof.Machine
end

section
/-! The statements of spec/42_neighbor.md: NEIGHBOR (R93), NEIGHBORS (R94), the datapath (R89 to R91) and the laws
(R95). -/

namespace Sys2Proof.Proofs

open Sys2Proof.Machine

/-- Settles O47: the two errors of the code commands in their order, and the code with its two indices moved. -/
theorem neighborResult : Obligations.NeighborResult := by
  refine ⟨fun w p d => ?_, fun s p d => ⟨fun hp => exec_of_code_prec_illegal rfl (precOk_eq_false hp),
    fun hp hp' hc => exec_of_code_ill_formed rfl ((precOk_iff p).2 ⟨hp, hp'⟩) hc, fun hp hp' hc => ?_⟩⟩
  · rw [decode_eq_ok_iff, encode]
    simp [Instr.prec, Instr.opcode, Instr.dir, Instr.quad]
  · obtain ⟨t, ht, hshows, hframe⟩ := exec_neighbor_of_well_formed hp hp' hc d
    refine ⟨t, _, ht, hshows, hframe, wellFormedCode_moveCode hp' _ _ _, fun move hmove hd => ?_⟩
    subst hd
    exact neighbor_indices hmove s.capA hp'

/-- Settles O48: the same errors, and the eight codes that NEIGHBOR shows in R0, in the order of the direction
codes. -/
theorem neighborsResult : Obligations.NeighborsResult := by
  refine ⟨fun w p => decode_eq_ok_iff_of_prec_only rfl rfl w, fun s p =>
    ⟨fun hp => exec_of_code_prec_illegal rfl (precOk_eq_false hp),
      fun hp hp' hc => exec_of_code_ill_formed rfl ((precOk_iff p).2 ⟨hp, hp'⟩) hc, fun hp hp' hc => ?_⟩⟩
  obtain ⟨t, ht, hshows, hframe⟩ :=
    exec_of_code (i := .neighbors p) rfl ((precOk_iff p).2 ⟨hp, hp'⟩) hc (by omega) rfl
  refine ⟨t, neighbor s.capA p, ht, hshows, hframe, fun move hmove =>
    ⟨?_, wellFormedCode_moveCode hp' _ _ _, neighbor_indices hmove s.capA hp'⟩⟩
  obtain ⟨u, hu, hr0, -⟩ := exec_neighbor_of_well_formed hp hp' hc move.1
  exact ⟨u, hu, hr0.r0_eq⟩

/-- Settles O49: the datapath's two moves are moves of the code by its indices, which add up in either order and keep
the other index. -/
theorem datapathEqualsIndexArithmetic : Obligations.DatapathEqualsIndexArithmetic := by
  intro c p _ hp hc
  have hunit : ∀ move ∈ directionMoves, (move.2.1 = 1 ∨ move.2.1 = -1 ∨ move.2.1 = 0) ∧
      (move.2.2 = 1 ∨ move.2.2 = -1 ∨ move.2.2 = 0) := by decide
  refine ⟨fun move hmove => ?_, ?_, ?_, fun δ hδ => ?_⟩
  · obtain ⟨hlat, hlng⟩ := hunit move hmove
    rw [neighbor_eq_moveCode_of_mem hmove, moveLat_eq_moveCode hp hc hlat, moveLng_eq_moveCode hp hc hlng,
      moveLng_eq_moveCode hp (wellFormedCode_moveCode hp c _ _) hlng,
      moveLat_eq_moveCode hp (wellFormedCode_moveCode hp c _ _) hlat, moveCode_moveCode hp, moveCode_moveCode hp,
      add_zero, zero_add, add_zero, zero_add]
    exact ⟨rfl, rfl⟩
  · rw [moveLat_eq_moveCode hp hc (by decide), moveCode_eq_self hp hc (dvd_zero _) (dvd_zero _)]
  · rw [moveLng_eq_moveCode hp hc (by decide), moveCode_eq_self hp hc (dvd_zero _) (dvd_zero _)]
  · have hδ' : δ = 1 ∨ δ = -1 ∨ δ = 0 := by
      rw [List.mem_pair] at hδ
      exact hδ.imp_right .inl
    rw [moveLat_eq_moveCode hp hc hδ', moveLng_eq_moveCode hp hc hδ']
    exact ⟨and_lngBits_eq_of_lngIdx_eq (lngIdx_moveCode_zero hp hc δ),
      and_latBits_eq_of_latIdx_eq (latIdx_moveCode_zero hp hc δ)⟩

/-- Settles O50: moves of a code add up, and a move by a multiple of `2^p` on an axis keeps its index. -/
theorem neighborLaws : Obligations.NeighborLaws := by
  intro c p _ hp hc
  refine ⟨fun pair hpair => ?_, fun d hd => ?_, fun d hd => ?_, fun d => wellFormedCode_moveCode hp _ _ _, fun d => ?_⟩
  · have hopposite : ∀ pair ∈ [(Direction.east, Direction.west), (.north, .south), (.northEast, .southWest),
        (.southEast, .northWest)],
        latDelta pair.1 + latDelta pair.2 = 0 ∧ lngDelta pair.1 + lngDelta pair.2 = 0 := by decide
    obtain ⟨hlat, hlng⟩ := hopposite pair hpair
    exact ⟨neighbor_neighbor_of_opposite hp hc hlat hlng,
      neighbor_neighbor_of_opposite hp hc (by omega) (by omega)⟩
  · have hlng : ∀ d ∈ [Direction.north, .south], lngDelta d = 0 := by decide
    have h := lngIdx_moveCode_zero hp hc (latDelta d)
    rwa [← hlng d hd] at h
  · have hlat : ∀ d ∈ [Direction.east, .west], latDelta d = 0 := by decide
    have h := latIdx_moveCode_zero hp hc (lngDelta d)
    rwa [← hlat d hd] at h
  · rw [iterate_neighbor hp hc, Nat.cast_pow, Nat.cast_ofNat, moveCode_eq_self hp hc] <;> exact dvd_mul_right _ _

end Sys2Proof.Proofs
end

section
/-! Rules for subdivision: the precisions of CHILD (spec/43_subdivide.md R98), the bits, the value and the indices of a
child code (R97), the bounds of a halved cell and the values that DECODE shows (R100). -/

namespace Sys2Proof.Machine

theorem childPrecOk_eq_false {p : Nat} (hp : p < 1 ∨ 31 < p) : childPrecOk p = false := by
  rw [← Bool.not_eq_true, childPrecOk_iff]
  omega

/-! ## The child code -/

theorem child_getLsbD (c : Word64) (q : BitVec 2) {k : Nat} (hk : k < 64) :
    (child c q).getLsbD k = if k < 2 then q.getLsbD k else c.getLsbD (k - 2) := by
  rw [child, BitVec.getLsbD_or, BitVec.getLsbD_shiftLeft, BitVec.getLsbD_setWidth]
  by_cases hk2 : k < 2
  · simp [hk, hk2]
  · simp [hk, hk2, BitVec.getLsbD_of_ge q k (not_lt.1 hk2)]

/-- The selector's bit 0 is shifted into the latitude index. -/
theorem latIdx_child (c : Word64) (q : BitVec 2) : latIdx (child c q) = (latIdx c).shiftConcat (q.getLsbD 0) := by
  apply BitVec.eq_of_getLsbD_eq
  intro i hi
  rw [latIdx_getLsbD, child_getLsbD c q (by omega), BitVec.getLsbD_shiftConcat, latIdx_getLsbD]
  cases i with
  | zero => simp
  | succ j =>
    have hj : j < 32 := by omega
    simp [hi, hj, Nat.mul_succ]

/-- The selector's bit 1 is shifted into the longitude index. -/
theorem lngIdx_child (c : Word64) (q : BitVec 2) : lngIdx (child c q) = (lngIdx c).shiftConcat (q.getLsbD 1) := by
  apply BitVec.eq_of_getLsbD_eq
  intro i hi
  rw [lngIdx_getLsbD, child_getLsbD c q (by omega), BitVec.getLsbD_shiftConcat, lngIdx_getLsbD]
  cases i with
  | zero => simp
  | succ j =>
    have hj : j < 32 := by omega
    simp [hi, hj, Nat.mul_succ, Nat.add_right_comm]

section
variable {c : Word64} {p : Nat} (hp : p ≤ 31) (hc : WellFormedCode c p) (q : BitVec 2)

include hp hc

/-- No bit is shifted out below precision 32. -/
theorem child_toNat : (child c q).toNat = 4 * c.toNat + q.toNat := by
  rw [wellFormedCode_iff, codeOk_iff_toNat_lt] at hc
  have hpow : 2 ^ (2 * p) ≤ 2 ^ 62 := Nat.pow_le_pow_right two_pos (by omega)
  have hshift : c.toNat <<< 2 < 2 ^ 64 := by rw [Nat.shiftLeft_eq]; omega
  rw [child, BitVec.toNat_or, BitVec.toNat_shiftLeft, Nat.mod_eq_of_lt hshift,
    BitVec.toNat_setWidth_of_le (by decide), ← Nat.shiftLeft_add_eq_or_of_lt q.isLt, Nat.shiftLeft_eq, mul_comm]

theorem wellFormedCode_child : WellFormedCode (child c q) (p + 1) := by
  have hvalue := child_toNat hp hc q
  rw [wellFormedCode_iff, codeOk_iff_toNat_lt] at hc ⊢
  have hpow : 2 ^ (2 * (p + 1)) = 4 * 2 ^ (2 * p) := by ring
  omega

theorem latIdx_child_toNat : (latIdx (child c q)).toNat = 2 * (latIdx c).toNat + (q.getLsbD 0).toNat := by
  rw [latIdx_child, BitVec.toNat_shiftConcat_eq_of_lt (Nat.lt_succ_of_le hp) hc.latIdx_lt, mul_comm]

theorem lngIdx_child_toNat : (lngIdx (child c q)).toNat = 2 * (lngIdx c).toNat + (q.getLsbD 1).toNat := by
  rw [lngIdx_child, BitVec.toNat_shiftConcat_eq_of_lt (Nat.lt_succ_of_le hp) hc.lngIdx_lt, mul_comm]

end

/-- CHILD of a well-formed code shows the child (43_subdivide.md R99). -/
theorem exec_child_of_well_formed {s : State} {p : Nat} (hp : 1 ≤ p) (hp' : p ≤ 31) (hc : WellFormedCode s.capA p)
    (q : Quadrant) :
    ∃ t, exec (.child p q) s = .next t ∧ t.shows 1 (p + 1) [child s.capA q.code] ∧ SameOutsideResponse s t :=
  exec_of_code rfl ((childPrecOk_iff p).2 ⟨hp, hp'⟩) hc (by omega) rfl

/-! ## The halves of a cell -/

theorem cellBound_lt_succ (lo : ℚ) {width : ℚ} (hwidth : 0 < width) (p i : Nat) :
    cellBound lo width p i < cellBound lo width p (i + 1) := by
  rw [← sub_pos, cellBound_succ_sub]
  positivity

section
variable (lo width : ℚ) (p i : Nat)

/-- Every bound at p is a bound at p + 1. -/
theorem cellBound_double : cellBound lo width (p + 1) (2 * i) = cellBound lo width p i := by
  rw [cellBound_eq, cellBound_eq]
  push_cast
  field_simp
  ring

/-- The bound that p + 1 adds inside cell i is the cell's middle. -/
theorem cellBound_double_succ :
    cellBound lo width (p + 1) (2 * i + 1) = (cellBound lo width p i + cellBound lo width p (i + 1)) / 2 := by
  rw [cellBound_eq, cellBound_eq, cellBound_eq]
  push_cast
  field_simp
  ring

/-- The lower bound of either half of cell i (43_subdivide.md R100). -/
theorem cellBound_half_lower (b : Bool) :
    cellBound lo width (p + 1) (2 * i + b.toNat) =
      if b then (cellBound lo width p i + cellBound lo width p (i + 1)) / 2 else cellBound lo width p i := by
  cases b with
  | false => exact cellBound_double lo width p i
  | true => exact cellBound_double_succ lo width p i

/-- The upper bound of either half of cell i (43_subdivide.md R100). -/
theorem cellBound_half_upper (b : Bool) :
    cellBound lo width (p + 1) (2 * i + b.toNat + 1) =
      if b then cellBound lo width p (i + 1) else (cellBound lo width p i + cellBound lo width p (i + 1)) / 2 := by
  cases b with
  | false => exact cellBound_double_succ lo width p i
  | true => exact cellBound_double lo width p (i + 1)

end

/-- The values of the words that DECODE shows for a code of given indices (41_scaler.md R83, R84). -/
theorem exec_decode_values {s : State} {p la ln : Nat} (hp : 1 ≤ p) (hp' : p ≤ 32) (hc : WellFormedCode s.capA p)
    (hla : (latIdx s.capA).toNat = la) (hln : (lngIdx s.capA).toNat = ln) :
    ∃ t, exec (.decode p) s = .next t ∧ t.status = 1 ∧
      f64val t.r[0] = .finite (latBound p la) ∧ f64val t.r[1] = .finite (latBound p (la + 1)) ∧
      f64val t.r[2] = .finite (lngBound p ln) ∧ f64val t.r[3] = .finite (lngBound p (ln + 1)) := by
  subst hla hln
  obtain ⟨t, ht, ⟨hstatus, -, hr⟩, -⟩ := exec_decode_of_well_formed hp hp' hc
  refine ⟨t, ht, hstatus, ?_, ?_, ?_, ?_⟩
  · exact (congrArg f64val (hr 0)).trans (f64val_f64word_latBound hp' hc.latIdx_lt.le)
  · exact (congrArg f64val (hr 1)).trans (f64val_f64word_latBound hp' hc.latIdx_lt)
  · exact (congrArg f64val (hr 2)).trans (f64val_f64word_lngBound hp' hc.lngIdx_lt.le)
  · exact (congrArg f64val (hr 3)).trans (f64val_f64word_lngBound hp' hc.lngIdx_lt)

end Sys2Proof.Machine
end

section
/-! The statements of spec/43_subdivide.md: CHILD (R99), the child's indices (R97) and the partition law (R100). -/

namespace Sys2Proof.Proofs

open Sys2Proof.Machine

/-- Settles O51: the two errors of the code commands in their order, with CHILD's own precision range, and the value of
the child code. -/
theorem childResult : Obligations.ChildResult := by
  refine ⟨fun w p q => ?_, fun s p q => ⟨fun hp => exec_of_code_prec_illegal rfl (childPrecOk_eq_false hp),
    fun hp hp' hc => exec_of_code_ill_formed rfl ((childPrecOk_iff p).2 ⟨hp, hp'⟩) hc, fun hp hp' hc => ?_⟩⟩
  · rw [decode_eq_ok_iff, encode]
    simp [Instr.prec, Instr.opcode, Instr.dir, Instr.quad]
  · obtain ⟨t, ht, hshows, hframe⟩ := exec_child_of_well_formed hp hp' hc q
    exact ⟨t, _, ht, hshows, hframe, child_toNat hp' hc _, wellFormedCode_child hp' hc _⟩

/-- Settles O52: each bit of the selector is shifted into one index. -/
theorem childIndices : Obligations.ChildIndices := fun _ _ q _ hp hc =>
  ⟨rfl, wellFormedCode_child hp hc q, latIdx_child_toNat hp hc q, lngIdx_child_toNat hp hc q⟩

/-- Settles O53: the child's doubled index plus a selector bit is one half of the parent's cell on that axis. -/
theorem childrenTileTheParent : Obligations.ChildrenTileTheParent := by
  intro s p hp hp' hc
  obtain ⟨t, ht, hstatus, hlatLo, hlatHi, hlngLo, hlngHi⟩ := exec_decode_values hp (by omega) hc rfl rfl
  refine ⟨t, _, _, _, _, ht, hstatus, hlatLo, hlatHi, hlngLo, hlngHi, cellBound_lt_succ _ latRange_pos p _,
    cellBound_lt_succ _ lngRange_pos p _, fun q => ?_⟩
  obtain ⟨c, hchild, hshows, -⟩ := exec_child_of_well_formed hp hp' hc q
  have hcode := hshows.r0_eq
  obtain ⟨u, hu, hustatus, hvalues⟩ := exec_decode_values (s := { c with capA := c.r[0] }) (by omega) (by omega)
    (hcode ▸ wellFormedCode_child hp' hc q.code) (hcode ▸ latIdx_child_toNat hp' hc q.code)
    (hcode ▸ lngIdx_child_toNat hp' hc q.code)
  simp only [latBound, lngBound, cellBound_half_lower, cellBound_half_upper] at hvalues
  exact ⟨c, u, hchild, hu, hustatus, hvalues⟩

end Sys2Proof.Proofs
end

section
/-! Rules for the errors: the family of checks that each command makes (spec/60_exceptions.md R101), the status that the
checks decide in their order (R104), and a command for every status that an operation can report (R102). -/

namespace Sys2Proof.Machine

/-- From any state, the completing edge writes the response of the captured command (70_reset_and_hazards.md R122). -/
theorem completionEdge_writes_responseOf (s : State) :
    ∃ t, completionEdge s = .next t ∧ some t.response = responseOf s.capCmd s.capA s.capB := by
  obtain ⟨ρ, hρ, -, h⟩ := completionEdge_eq_next s
  exact ⟨_, h, hρ.symm⟩

/-! ## The status of checked commands -/

/-- The four families of commands by OP: no check, the checks of SCALE and ENCODE, those of DECODE, NEIGHBOR and
NEIGHBORS, and those of CHILD. A command that passes its checks succeeds. -/
theorem commandResponse_checks (a b : Word64) (i : Instr) :
    (i.opcode ≤ 4 ∧ (commandResponse a b i).status = 1) ∨
      (5 ≤ i.opcode ∧ i.opcode ≤ 6 ∧ ∃ f : ℚ → ℚ → Response, (∀ lat lng, (f lat lng).status = 1) ∧
        commandResponse a b i = withCoordinates i.prec (f64val a) (f64val b) f) ∨
      (7 ≤ i.opcode ∧ i.opcode ≤ 9 ∧ ∃ ρ : Response, ρ.status = 1 ∧
        commandResponse a b i = withCode precOk i.prec a ρ) ∨
      (i.opcode = 0xA ∧ ∃ ρ : Response, ρ.status = 1 ∧ commandResponse a b i = withCode childPrecOk i.prec a ρ) := by
  cases i with
  | spread | squash | interleave | deinterleave => exact .inl ⟨by decide, rfl⟩
  | scale | encode => exact .inr (.inl ⟨by simp [Instr.opcode], by simp [Instr.opcode], _, fun _ _ => rfl, rfl⟩)
  | decode | neighbor | neighbors =>
    exact .inr (.inr (.inl ⟨by simp [Instr.opcode], by simp [Instr.opcode], _, rfl, rfl⟩))
  | child => exact .inr (.inr (.inr ⟨rfl, _, rfl, rfl⟩))

/-- The coordinates, then the precision (41_scaler.md R76). -/
theorem withCoordinates_status_order {a b : Word64} {p : Nat} {f : ℚ → ℚ → Response}
    (hf : ∀ lat lng, (f lat lng).status = 1) :
    let status := (withCoordinates p (f64val a) (f64val b) f).status
    let refused := (¬∃ lat, IsLatitude a lat) ∨ ¬∃ lng, IsLongitude b lng
    (refused → status = 3) ∧ (¬refused → precOk p = false → status = 2) ∧ (¬refused → precOk p = true → status = 1) := by
  simp only [not_or, not_not]
  refine ⟨fun h => congrArg Response.status (withCoordinates_of_refused h f), ?_, ?_⟩ <;>
    rintro ⟨⟨lat, hlat⟩, lng, hlng⟩ hp <;> rw [withCoordinates_of_valid hlat hlng, hp]
  · rfl
  · exact hf lat lng

/-- The precision, then the code (41_scaler.md R81, 43_subdivide.md R98). -/
theorem withCode_status_order {legal : Nat → Bool} {c : Word64} {p : Nat} {ρ : Response} (hρ : ρ.status = 1) :
    let status := (withCode legal p c ρ).status
    (legal p = false → status = 2) ∧ (legal p = true → ¬WellFormedCode c p → status = 4) ∧
      (legal p = true → WellFormedCode c p → status = 1) :=
  ⟨fun hp => congrArg Response.status (withCode_of_prec_illegal hp c ρ),
    fun hp hc => congrArg Response.status (withCode_of_ill_formed hp hc ρ),
    fun hp hc => (congrArg Response.status (withCode_of_well_formed hp hc ρ)).trans hρ⟩

theorem withCoordinates_status_cases {p : Nat} {a b : F64} {f : ℚ → ℚ → Response}
    (hf : ∀ lat lng, (f lat lng).status = 1) :
    let status := (withCoordinates p a b f).status
    status = 1 ∨ status = 2 ∨ status = 3 := by
  obtain ⟨-, h⟩ | ⟨lat, lng, -, -, ⟨-, h⟩ | ⟨-, h⟩⟩ := withCoordinates_cases p a b f <;> rw [h]
  · exact .inr (.inr rfl)
  · exact .inr (.inl rfl)
  · exact .inl (hf lat lng)

theorem withCode_status_cases {legal : Nat → Bool} {c : Word64} {p : Nat} {ρ : Response} (hρ : ρ.status = 1) :
    let status := (withCode legal p c ρ).status
    status = 1 ∨ status = 2 ∨ status = 4 := by
  obtain ⟨-, h⟩ | ⟨-, -, h⟩ | ⟨-, -, h⟩ := withCode_cases legal p c ρ <;> rw [h]
  · exact .inr (.inl rfl)
  · exact .inr (.inr rfl)
  · exact .inl hρ

/-- What the command of a legal word can report, by its OP (60_exceptions.md R102). -/
theorem commandResponse_status_cases (a b : Word64) (i : Instr) :
    let status := (commandResponse a b i).status
    status = 1 ∨ (5 ≤ i.opcode ∧ status = 2) ∨ (5 ≤ i.opcode ∧ i.opcode ≤ 6 ∧ status = 3) ∨
      (7 ≤ i.opcode ∧ status = 4) := by
  obtain ⟨-, h⟩ | ⟨h5, h6, f, hf, h⟩ | ⟨h7, -, ρ, hρ, h⟩ | ⟨hA, ρ, hρ, h⟩ := commandResponse_checks a b i
  · exact .inl h
  · rw [h]
    exact (withCoordinates_status_cases hf).imp_right (.imp (⟨h5, ·⟩) fun hst => .inl ⟨h5, h6, hst⟩)
  · rw [h]
    exact (withCode_status_cases hρ).imp_right (.imp (⟨by omega, ·⟩) fun hst => .inr ⟨h7, hst⟩)
  · rw [h]
    exact (withCode_status_cases hρ).imp_right (.imp (⟨by omega, ·⟩) fun hst => .inr ⟨by omega, hst⟩)

/-! ## A command for each status -/

/-- Some command word with this OP, and some operands, are answered with this STATUS. -/
def Reports (op : BitVec 4) (st : BitVec 3) : Prop :=
  ∃ c a b ρ, opField c = op ∧ responseOf c a b = some ρ ∧ ρ.status = st

/-- The STATUS of the word of this OP and PREC, with DIR and QUAD zero. -/
def statusAt (op : BitVec 4) (p : BitVec 6) (a b : Word64) : Option (BitVec 3) :=
  (responseOf (Laws.pack op p 0 0) a b).map Response.status

theorem reports_of_statusAt {op : BitVec 4} {p : BitVec 6} {a b : Word64} {st : BitVec 3}
    (h : statusAt op p a b = some st) : Reports op st := by
  obtain ⟨ρ, hρ, hst⟩ := Option.map_eq_some_iff.1 h
  exact ⟨_, a, b, ρ, Laws.pack_opField op p 0 0, hρ, hst⟩

/-- With a reserved bit set, a word of any OP is not legal. -/
theorem reports_illegalCommand (op : BitVec 4) : Reports op 5 := by
  obtain ⟨hop, hdecode⟩ : opField (op.setWidth 32 ||| 0x8000) = op ∧
      decode (op.setWidth 32 ||| 0x8000) = .error .reservedBits := by
    revert op
    decide
  exact ⟨_, 0, 0, _, hop, responseOf_of_next (completionEdge_of_error _ _ hdecode), rfl⟩

section
variable (op : BitVec 4)

/-- With zero operands every operation succeeds, at precision 1 where it has one. -/
theorem reports_ok (hlo : 1 ≤ op.toNat) (hhi : op.toNat ≤ 0xA) : Reports op 1 :=
  reports_of_statusAt (p := if op.toNat ≤ 4 then 0 else 1) (a := 0) (b := 0) (by revert op; decide +kernel)

/-- Zero operands at precision 0. -/
theorem reports_invalidPrecision (hlo : 5 ≤ op.toNat) (hhi : op.toNat ≤ 0xA) : Reports op 2 :=
  reports_of_statusAt (p := 0) (a := 0) (b := 0) (by revert op; decide +kernel)

/-- A NaN as the latitude. -/
theorem reports_invalidCoordinate (hlo : 5 ≤ op.toNat) (hhi : op.toNat ≤ 6) : Reports op 3 :=
  reports_of_statusAt (p := 1) (a := 0x7FF8000000000000) (b := 0) (by revert op; decide +kernel)

/-- A code of three bits at precision 1. -/
theorem reports_invalidCode (hlo : 7 ≤ op.toNat) (hhi : op.toNat ≤ 0xA) : Reports op 4 :=
  reports_of_statusAt (p := 1) (a := 4) (b := 0) (by revert op; decide +kernel)

end

end Sys2Proof.Machine
end

section
/-! The statements of spec/60_exceptions.md: the statuses of each operation (R102), error completion (R103) and the
order of the checks (R104). -/

namespace Sys2Proof.Proofs

open Sys2Proof.Machine

/-- Settles O22: a completing edge writes a success or an error's zeroes and clears BUSY, and the next one reads
nothing but the command it has captured. -/
theorem errorsWriteZeroes : Obligations.ErrorsWriteZeroes := by
  intro s t ht hne
  obtain ⟨ρ, -, hshape, h⟩ := completionEdge_eq_next s
  obtain rfl := Host.Outcome.next.inj (h.symm.trans ht)
  obtain hok | ⟨hstatus, hprec, hresults⟩ := hshape.status_and_zeroes
  · exact absurd hok hne
  · exact ⟨hstatus, hprec, hresults, rfl, fun x => completionEdge_writes_responseOf (State.capture _ x)⟩

/-- Settles O23: a status is ILLEGAL_COMMAND or one that the checks of the command's family give, and for each of these
there is a command that reports it. -/
theorem statusesEachOperationReports : Obligations.StatusesEachOperationReports := by
  intro op st
  constructor
  · rintro ⟨c, a, b, ρ, rfl, hρ, rfl⟩
    obtain ⟨e, -, h⟩ | ⟨i, hd, h⟩ := responseOf_cases c a b <;> obtain rfl := Option.some.inj (hρ.symm.trans h)
    · exact .inl rfl
    · obtain ⟨-, hop, -, -, -⟩ := fields_of_decode_eq_ok hd
      obtain ⟨-, ⟨hlo, hhi⟩, -⟩ := (legal_iff c).1 (legal_of_decode_eq_ok hd)
      rw [hop] at hlo hhi
      rw [← opField, hop]
      obtain hst | ⟨h5, hst⟩ | ⟨h5, h6, hst⟩ | ⟨h7, hst⟩ := commandResponse_status_cases a b i
      · exact .inr (.inl ⟨hlo, hhi, hst⟩)
      · exact .inr (.inr (.inl ⟨h5, hhi, hst⟩))
      · exact .inr (.inr (.inr (.inl ⟨h5, h6, hst⟩)))
      · exact .inr (.inr (.inr (.inr ⟨h7, hhi, hst⟩)))
  · rintro (rfl | ⟨hlo, hhi, rfl⟩ | ⟨hlo, hhi, rfl⟩ | ⟨hlo, hhi, rfl⟩ | ⟨hlo, hhi, rfl⟩)
    · exact reports_illegalCommand op
    · exact reports_ok op hlo hhi
    · exact reports_invalidPrecision op hlo hhi
    · exact reports_invalidCoordinate op hlo hhi
    · exact reports_invalidCode op hlo hhi

/-- Settles O24: the fields of a legal word are its command's, whose family says which checks are made in which
order. -/
theorem firstFailingCheckDecides : Obligations.FirstFailingCheckDecides := by
  intro c a b
  obtain ⟨e, hd, h⟩ | ⟨i, hd, h⟩ := responseOf_cases c a b
  · refine ⟨_, h, fun _ => rfl, fun ⟨i, hi⟩ => ?_⟩
    rw [hd] at hi
    cases hi
  · obtain ⟨-, hop, hprec, -, -⟩ := fields_of_decode_eq_ok hd
    refine ⟨_, h, fun hnot => absurd ⟨i, hd⟩ hnot, fun _ => ?_⟩
    rw [← opField, ← precField, hop, hprec]
    obtain ⟨h4, hst⟩ | ⟨h5, h6, f, hf, hr⟩ | ⟨h7, h9, ρ, hρ, hr⟩ | ⟨hA, ρ, hρ, hr⟩ := commandResponse_checks a b i
    · rwa [if_pos h4]
    · rw [if_neg (by omega), if_pos h6, hr]
      obtain ⟨hcoord, hp, hok⟩ := withCoordinates_status_order (p := i.prec) hf
      exact ⟨hcoord, fun hv hbad => hp hv (precOk_eq_false hbad),
        fun hv hgood => hok hv ((precOk_iff _).2 (by omega))⟩
    · rw [if_neg (by omega), if_neg (by omega), if_pos h9, hr]
      obtain ⟨hp, hcode, hok⟩ := withCode_status_order (legal := precOk) (c := a) (p := i.prec) hρ
      exact ⟨fun hbad => hp (precOk_eq_false hbad), fun hgood => hcode ((precOk_iff _).2 (by omega)),
        fun hgood hc => hok ((precOk_iff _).2 (by omega)) (not_not.1 hc)⟩
    · rw [if_neg (by omega), if_neg (by omega), if_neg (by omega), hr]
      obtain ⟨hp, hcode, hok⟩ := withCode_status_order (legal := childPrecOk) (c := a) (p := i.prec) hρ
      exact ⟨fun hbad => hp (childPrecOk_eq_false hbad), fun hlo hhi => hcode ((childPrecOk_iff _).2 ⟨hlo, hhi⟩),
        fun hlo hhi hc => hok ((childPrecOk_iff _).2 ⟨hlo, hhi⟩) (not_not.1 hc)⟩

end Sys2Proof.Proofs
end

section
/-! Rules for reset edges, idle edges and the runs that these make (spec/70_reset_and_hazards.md R116, R117, R123,
R125), and for a run cut in two. -/

namespace Sys2Proof.Machine

/-! ## One edge that accepts nothing -/

/-- The reset values do not depend on the state before the reset (70_reset_and_hazards.md R116). -/
theorem resetEdge_atResetValues (s : State) : s.resetEdge.AtResetValues :=
  ⟨rfl, rfl, fun k => resultRegs_getElem [] k, rfl, rfl, rfl⟩

theorem edge_of_idle {s : State} (latency : Nat) (hr : s.sample.rst = false) (hb : s.busy = false)
    (hv : s.sample.cmdValid = false) : edge latency s = .next s.advance.hold := by
  simp [edge, edgeWith, accepts, hr, hb, hv]

/-- A reset edge reads no other port, a busy block only rst, and an idle one that is offered nothing only rst and
cmd_valid (70_reset_and_hazards.md R116, R124, R125). -/
theorem edgeWith_congr_of_not_accepted {s : State} {x y : PortIn} (latency : Nat) (hrst : x.rst = y.rst)
    (h : x.rst = true ∨ s.busy = true ∨ (x.cmdValid = false ∧ y.cmdValid = false)) :
    edgeWith latency x s = edgeWith latency y s := by
  obtain hr | hb | ⟨hx, hy⟩ := h
  · simp [edgeWith, hr, ← hrst]
  · simp [edgeWith, hb, hrst]
  · simp [edgeWith, accepts, hx, hy, hrst]

/-! ## Runs cut in two -/

/-- A run is its first edge and then the others. -/
theorem edges_succ_of_edge {latency n : Nat} {s t : State} (h : edge latency s = .next t) :
    edges latency (n + 1) s = edges latency n t := by
  simp only [edges, h]

/-- A run is its first n edges and then the others. -/
theorem edges_add_of_next {latency n m : Nat} {s t : State} (h : edges latency n s = .next t) :
    edges latency (n + m) s = edges latency m t := by
  induction n generalizing s with
  | zero =>
    cases h
    rw [Nat.zero_add]
  | succ n ih =>
    obtain ⟨u, hu⟩ := edge_eq_next latency s
    rw [edges_succ_of_edge hu] at h
    rw [Nat.succ_add, edges_succ_of_edge hu, ih h]

/-! ## Runs of reset edges -/

/-- The next n edges are sampled, and each with rst = 1. -/
def ResetInputs (n : Nat) (xs : List PortIn) : Prop := n ≤ xs.length ∧ ∀ x ∈ xs.take n, x.rst = true

theorem ResetInputs.head_and_tail {n : Nat} {xs : List PortIn} (h : ResetInputs (n + 1) xs) :
    (xs.headD PortIn.idle).rst = true ∧ ResetInputs n xs.tail := by
  obtain ⟨hlen, hr⟩ := h
  cases xs with
  | nil => exact absurd hlen (Nat.not_succ_le_zero n)
  | cons x xs =>
    obtain ⟨hx, hxs⟩ := List.forall_mem_cons.1 hr
    exact ⟨hx, Nat.le_of_succ_le_succ hlen, hxs⟩

/-- More reset edges after one end with a reset edge as well (70_reset_and_hazards.md R116). -/
theorem edges_resetEdge_of_resets (latency : Nat) {n : Nat} {s : State} (h : ResetInputs n s.inputs) :
    ∃ t : State, edges latency n s.resetEdge = .next t.resetEdge := by
  induction n generalizing s with
  | zero => exact ⟨s, rfl⟩
  | succ n ih =>
    obtain ⟨hr, htail⟩ := h.head_and_tail
    rw [edges_succ_of_edge (edge_of_reset (s := s.resetEdge) latency hr)]
    exact ih (s := s.resetEdge.advance) htail

/-! ## Quiet runs -/

/-- Past the end of the inputs the ports are idle, which is quiet too. -/
theorem QuietInputs.head_and_tail {n : Nat} {xs : List PortIn} (h : QuietInputs (xs.take (n + 1))) :
    (xs.headD PortIn.idle).rst = false ∧ (xs.headD PortIn.idle).cmdValid = false ∧ QuietInputs (xs.tail.take n) := by
  cases xs with
  | nil => exact ⟨rfl, rfl, by simp [QuietInputs]⟩
  | cons x xs =>
    obtain ⟨⟨hr, hv⟩, hxs⟩ := List.forall_mem_cons.1 h
    exact ⟨hr, hv, hxs⟩

/-- An idle block that is offered nothing stands still once RSP_VALID is 0 (60_exceptions.md R114). -/
theorem edges_of_quiet (latency : Nat) {n : Nat} {s : State} (hb : s.busy = false) (hv : s.rspValid = false)
    (hq : QuietInputs (s.inputs.take n)) : edges latency n s = .next { s with inputs := s.inputs.drop n } := by
  induction n generalizing s with
  | zero => rfl
  | succ n ih =>
    obtain ⟨hr, hoffer, htail⟩ := hq.head_and_tail
    rw [edges_succ_of_edge (edge_of_idle latency hr hb hoffer), ih (s := s.advance.hold) hb rfl htail]
    simp [State.advance, State.hold, hv]

/-- On an idle block that is offered nothing, the first edge clears RSP_VALID and the response stays
(70_reset_and_hazards.md R123). -/
theorem edges_succ_of_quiet (latency : Nat) {n : Nat} {s : State} (hb : s.busy = false)
    (hq : QuietInputs (s.inputs.take (n + 1))) :
    edges latency (n + 1) s = .next { s.hold with inputs := s.inputs.drop (n + 1) } := by
  obtain ⟨hr, hoffer, htail⟩ := hq.head_and_tail
  rw [edges_succ_of_edge (edge_of_idle latency hr hb hoffer), edges_of_quiet (s := s.advance.hold) latency hb rfl htail]
  simp [State.advance, State.hold]

end Sys2Proof.Machine
end

section
/-! The statements of spec/70_reset_and_hazards.md: reset (R116, R117), the timing of a response (R123), BUSY and CNT
(R124) and ports that are not sampled (R125). -/

namespace Sys2Proof.Proofs

open Sys2Proof.Machine

/-- Settles O9: the first reset edge forgets the state before it, and every later one gives the same values again. -/
theorem resetEdgesGiveResetValues : Obligations.ResetEdgesGiveResetValues := by
  intro latency n s hn hlen hr
  obtain ⟨n, rfl⟩ := Nat.exists_eq_succ_of_ne_zero hn.ne'
  obtain ⟨hfirst, hrest⟩ := ResetInputs.head_and_tail ⟨hlen, hr⟩
  obtain ⟨t, ht⟩ := edges_resetEdge_of_resets (s := s.advance) latency hrest
  rw [edges_succ_of_edge (edge_of_reset latency hfirst)]
  exact ⟨_, ht, resetEdge_atResetValues t⟩

/-- Settles O10: a reset edge leaves the block idle with RSP_VALID = 0, and a quiet run leaves such a block alone. -/
theorem resetAbandonsCommandInFlight : Obligations.ResetAbandonsCommandInFlight := by
  intro latency n s _ hr hq
  rw [edges_succ_of_edge (edge_of_reset latency hr), edges_of_quiet (s := s.advance.resetEdge) latency rfl rfl hq]
  exact ⟨_, rfl, resetEdge_atResetValues s⟩

/-- Settles O13: the block is `State.inFlight` until edge LATENCY, which writes the response, and what follows is a
quiet run of an idle block. -/
theorem responseIsWrittenAtEdgeLatency : Obligations.ResponseIsWrittenAtEdgeLatency := by
  intro latency s hl hb hv hn
  refine ⟨fun k hk hkl => ⟨_, edges_eq_inFlight hb hv hk hkl hn, inFlight_response k, rfl, rfl, rfl⟩, ?_⟩
  obtain ⟨ρ, hρ, hrun⟩ := edges_latency_eq_next hl hb hv hn
  refine ⟨_, hrun, hρ.symm, rfl, rfl, rfl, fun m hm hq => ?_⟩
  obtain ⟨m, rfl⟩ := Nat.exists_eq_succ_of_ne_zero (Nat.one_le_iff_ne_zero.1 hm)
  rw [edges_add_of_next hrun, edges_succ_of_quiet latency rfl hq]
  exact ⟨_, rfl, rfl, rfl⟩

/-- Settles O14, one rule of `edge` for each clause about one edge, and for the last the state of the block during the
run and after it. -/
theorem busyCountsDownToCompletion : Obligations.BusyCountsDownToCompletion := by
  intro latency s hr
  refine ⟨fun hl hb => ?latencyOne, fun hl hb hv => ?accepting, fun hb hc => ?counting, fun hb hc => ?completing,
    fun hl hb hv hn k hk hkl => ?ready⟩
  case latencyOne =>
    cases hv : s.sample.cmdValid with
    | true =>
      obtain ⟨ρ, hρ, -, h⟩ := completionEdge_eq_next (s.advance.capture s.sample)
      exact ⟨_, (edge_of_accept_last hr hb hv hl).trans h, rfl, fun _ => ⟨rfl, hρ.symm⟩⟩
    | false => exact ⟨_, edge_of_idle latency hr hb hv, hb, nofun⟩
  case accepting => exact ⟨_, edge_of_accept hr hb hv hl, rfl, rfl, rfl, rfl, rfl⟩
  case counting => exact ⟨_, edge_of_count hr hb hc, hb, rfl, rfl, rfl, rfl, rfl⟩
  case completing =>
    obtain ⟨ρ, hρ, -, h⟩ := completionEdge_eq_next s.advance
    exact ⟨_, (edge_of_last hr hb hc.le).trans h, rfl, rfl, rfl, hρ.symm, rfl, rfl, rfl⟩
  case ready =>
    obtain rfl | hkl := hkl.eq_or_lt
    · obtain ⟨ρ, -, hrun⟩ := edges_latency_eq_next hl hb hv hn
      exact ⟨_, hrun, (decide_eq_true rfl).symm⟩
    · exact ⟨_, edges_eq_inFlight hb hv hk hkl hn, (decide_eq_false hkl.ne).symm⟩

/-- Settles O15: what an edge finds on the ports is the argument x of `edgeWith`. -/
theorem unacceptedPortValuesHaveNoEffect : Obligations.UnacceptedPortValuesHaveNoEffect := by
  intro latency s x y xs hrst h
  exact edgeWith_congr_of_not_accepted (s := { s with inputs := xs }) latency hrst h

end Sys2Proof.Proofs
end

section
/-! Rules for the encoder and the assembler: the commands that have a word (spec/30_encoding.md R48), the words of
NEIGHBOR and CHILD (R52, R53), and the lines of R60 and R62 part by part. -/

namespace Sys2Proof

/-! ## Words -/

/-- The one bound on a command's fields is the width of PREC (30_encoding.md R51). -/
theorem Instr.wellFormed_iff (i : Instr) : i.wellFormed = true ↔ i.prec < 64 := by
  cases i with
  | spread | squash | interleave | deinterleave => exact iff_of_true rfl (by decide)
  | scale | encode | decode | neighbor | neighbors | child => exact decide_eq_true_iff

theorem encode_neighbor (p : Nat) (d : Direction) :
    encode (.neighbor p d) = 0x8 ||| (BitVec.ofNat 32 p <<< 4) ||| (d.code.setWidth 32 <<< 10) := by
  simp [encode, Instr.opcode, Instr.prec, Instr.dir, Instr.quad]

theorem encode_child (p : Nat) (q : Quadrant) :
    encode (.child p q) = 0xA ||| (BitVec.ofNat 32 p <<< 4) ||| (q.code.setWidth 32 <<< 13) := by
  simp [encode, Instr.opcode, Instr.prec, Instr.dir, Instr.quad]

theorem decode_neighborWord {p : Nat} (hp : p < 64) (d : Direction) :
    decode (0x8 ||| (BitVec.ofNat 32 p <<< 4) ||| (d.code.setWidth 32 <<< 10)) = .ok (.neighbor p d) :=
  encode_neighbor p d ▸ decode_encode hp

theorem decode_childWord {p : Nat} (hp : p < 64) (q : Quadrant) :
    decode (0xA ||| (BitVec.ofNat 32 p <<< 4) ||| (q.code.setWidth 32 <<< 13)) = .ok (.child p q) :=
  encode_child p q ▸ decode_encode hp

end Sys2Proof

namespace Sys2Proof.Machine

/-! ## Lines -/

/-- The command that the first word of a line names at precision p, with or without a suffix (30_encoding.md R60). -/
def mnemonicInstr (head : List Char) (p : Nat) : Option Instr :=
  match splitFirst '.' head with
  | (name, none) => plainMnemonic name p
  | (name, some suffix) => suffixedMnemonic name suffix p

theorem mnemonicInstr_of_plain {head name : List Char} (h : splitFirst '.' head = (name, none)) (p : Nat) :
    mnemonicInstr head p = plainMnemonic name p := by
  rw [mnemonicInstr, h]

theorem mnemonicInstr_of_suffixed {head name suffix : List Char} (h : splitFirst '.' head = (name, some suffix))
    (p : Nat) : mnemonicInstr head p = suffixedMnemonic name suffix p := by
  rw [mnemonicInstr, h]

/-- The parts of a line that opens with a mnemonic: the precision, then the command it names, then the operands. -/
theorem mnemonicCommand_eq_some_iff (head : List Char) (ws : List (List Char)) (c : Command) :
    mnemonicCommand head ws = some c ↔ ∃ p rest i a b, precArgument ws = some (p, rest) ∧
      mnemonicInstr head p = some i ∧ operands rest = some (a, b) ∧ c = ⟨encode i, a, b⟩ := by
  constructor
  · intro h
    rw [mnemonicCommand] at h
    split at h
    · cases h
    next p rest hp =>
      dsimp only at h
      split at h
      next i a b hi hab => exact ⟨p, rest, i, a, b, hp, hi, hab, (Option.some.inj h).symm⟩
      · cases h
  · rintro ⟨p, rest, i, a, b, hp, hi, hab, rfl⟩
    rcases hsplit : splitFirst '.' head with ⟨name, _ | suffix⟩
    · rw [mnemonicInstr_of_plain hsplit] at hi
      simp [mnemonicCommand, hp, hsplit, hi, hab]
    · rw [mnemonicInstr_of_suffixed hsplit] at hi
      simp [mnemonicCommand, hp, hsplit, hi, hab]

/-- A line that opens with a mnemonic depends on it only through the command that it names. -/
theorem mnemonicCommand_congr {head head' : List Char} (h : mnemonicInstr head = mnemonicInstr head')
    (ws : List (List Char)) : mnemonicCommand head ws = mnemonicCommand head' ws := by
  ext c
  rw [mnemonicCommand_eq_some_iff, mnemonicCommand_eq_some_iff, h]

theorem assemble_of_mnemonic {line : String} {head : List Char} {ws : List (List Char)}
    (hline : lineWords line.toList = head :: ws) (hhead : head ≠ "CMD".toList) :
    assemble line = mnemonicCommand head ws := by
  simp only [assemble, hline, if_neg hhead]

theorem assemble_of_raw {line : String} {ws : List (List Char)} (hline : lineWords line.toList = "CMD".toList :: ws) :
    assemble line = rawCommand ws := by
  simp only [assemble, hline, if_true]

/-- PREC of a mnemonic's command is the argument p, which is 0 where the command takes none (30_encoding.md R62). -/
theorem withoutPrec_prec {p : Nat} {i j : Instr} (hj : j.prec = 0) (h : withoutPrec p j = some i) : i.prec = p := by
  rw [withoutPrec] at h
  split at h
  next hp =>
    obtain rfl := Option.some.inj h
    rw [hj, hp]
  · cases h

theorem plainMnemonic_prec {name : List Char} {p : Nat} {i : Instr} (h : plainMnemonic name p = some i) :
    i.prec = p := by
  rw [plainMnemonic] at h
  iterate 4 obtain ⟨-, h⟩ | ⟨-, h⟩ := ite_eq_iff.1 h; · exact withoutPrec_prec rfl h
  iterate 8 obtain ⟨-, h⟩ | ⟨-, h⟩ := ite_eq_iff.1 h; · exact Option.some.inj h ▸ rfl
  cases h

theorem suffixedMnemonic_prec {name suffix : List Char} {p : Nat} {i : Instr}
    (h : suffixedMnemonic name suffix p = some i) : i.prec = p := by
  rw [suffixedMnemonic] at h
  obtain ⟨-, h⟩ | ⟨-, h⟩ := ite_eq_iff.1 h
  · obtain ⟨d, -, rfl⟩ := Option.map_eq_some_iff.1 h
    rfl
  obtain ⟨-, h⟩ | ⟨-, h⟩ := ite_eq_iff.1 h
  · obtain ⟨q, -, rfl⟩ := Option.map_eq_some_iff.1 h
    rfl
  · cases h

theorem mnemonicInstr_prec {head : List Char} {p : Nat} {i : Instr} (h : mnemonicInstr head p = some i) :
    i.prec = p := by
  rcases hsplit : splitFirst '.' head with ⟨name, _ | suffix⟩
  · exact plainMnemonic_prec (mnemonicInstr_of_plain hsplit p ▸ h)
  · exact suffixedMnemonic_prec (mnemonicInstr_of_suffixed hsplit p ▸ h)

/-- `p=<n>` is a decimal 0..63 (30_encoding.md R60). -/
theorem precArgument_lt {ws rest : List (List Char)} {p : Nat} (h : precArgument ws = some (p, rest)) : p < 64 := by
  rw [precArgument] at h
  split at h
  · cases h
    decide
  · split at h
    · split at h
      · cases h
        assumption
      · cases h
    · cases h

/-- A line that opens with a mnemonic gives a legal word: `CMD` is the only spelling of illegal ones
(30_encoding.md R62). -/
theorem decode_of_mnemonicCommand {head : List Char} {ws : List (List Char)} {c : Command}
    (h : mnemonicCommand head ws = some c) : ∃ i, decode c.cmd = .ok i := by
  obtain ⟨p, rest, i, a, b, hp, hi, -, rfl⟩ := (mnemonicCommand_eq_some_iff head ws c).1 h
  exact ⟨i, decode_encode (mnemonicInstr_prec hi ▸ precArgument_lt hp)⟩

theorem precArgument_of_text {text : List Char} {p : Nat} (ht : number 10 text = some p) (hp : p < 64)
    (ws : List (List Char)) : precArgument (('p' :: '=' :: text) :: ws) = some (p, ws) := by
  simp [precArgument, takeArgument, ht, hp]

theorem operands_of_a {text : List Char} {a : Word64} (ht : operandLiteral text = some a) :
    operands ['a' :: '=' :: text] = some (a, 0) := by
  simp [operands, takeArgument, ht]

theorem rawCommand_of_word {text : List Char} {ws : List (List Char)} {w : Nat} {a b : Word64}
    (ht : naturalLiteral text = some w) (hw : w < 2 ^ 32) (hab : operands ws = some (a, b)) :
    rawCommand (text :: ws) = some ⟨BitVec.ofNat 32 w, a, b⟩ := by
  simp only [rawCommand, ht, hab, if_pos hw]

/-! ## Pseudo-instructions -/

/-- Both spellings name CHILD of the quadrant q, and neither is `CMD` (30_encoding.md R62). -/
def SpellsChild (pseudo expansion : String) (q : Quadrant) : Prop :=
  (pseudo.toList ≠ "CMD".toList ∧ expansion.toList ≠ "CMD".toList) ∧
    ∀ p, mnemonicInstr pseudo.toList p = some (.child p q) ∧ mnemonicInstr expansion.toList p = some (.child p q)

theorem spellsChild_leftBottom : SpellsChild "LEFT_BOTTOM" "CHILD.LB" .leftBottom := ⟨by decide, fun _ => ⟨rfl, rfl⟩⟩
theorem spellsChild_leftTop : SpellsChild "LEFT_TOP" "CHILD.LT" .leftTop := ⟨by decide, fun _ => ⟨rfl, rfl⟩⟩
theorem spellsChild_rightBottom : SpellsChild "RIGHT_BOTTOM" "CHILD.RB" .rightBottom :=
  ⟨by decide, fun _ => ⟨rfl, rfl⟩⟩
theorem spellsChild_rightTop : SpellsChild "RIGHT_TOP" "CHILD.RT" .rightTop := ⟨by decide, fun _ => ⟨rfl, rfl⟩⟩

section
variable {pseudo expansion : String} {q : Quadrant} (hspells : SpellsChild pseudo expansion q) {line : String}
  {ws : List (List Char)} (hline : lineWords line.toList = pseudo.toList :: ws)

include hspells hline

theorem SpellsChild.assemble_eq {line' : String} (hline' : lineWords line'.toList = expansion.toList :: ws) :
    assemble line = assemble line' := by
  obtain ⟨⟨hpseudo, hexpansion⟩, hchild⟩ := hspells
  rw [assemble_of_mnemonic hline hpseudo, assemble_of_mnemonic hline' hexpansion]
  refine mnemonicCommand_congr (funext fun p => ?_) ws
  obtain ⟨h, h'⟩ := hchild p
  rw [h, h']

theorem SpellsChild.assemble_arguments {precText codeText : List Char} {p : Nat} {c : Word64}
    (hws : ws = ['p' :: '=' :: precText, 'a' :: '=' :: codeText]) (hprec : number 10 precText = some p) (hp : p < 64)
    (hcode : operandLiteral codeText = some c) : assemble line = some ⟨encode (.child p q), c, 0⟩ := by
  obtain ⟨⟨hpseudo, -⟩, hchild⟩ := hspells
  obtain ⟨h, -⟩ := hchild p
  rw [assemble_of_mnemonic hline hpseudo, hws, mnemonicCommand_eq_some_iff]
  exact ⟨p, _, _, c, 0, precArgument_of_text hprec hp _, h, operands_of_a hcode, rfl⟩

end

end Sys2Proof.Machine
end

section
/-! The statements about the command word and its assembler: the two round trips (R48 to R56), the direction codes and
quadrant selectors (R52, R53) and the pseudo-instructions (R62). -/

namespace Sys2Proof.Proofs

open Sys2Proof.Machine

/-- Settles O1: a well-formed command's PREC fits its field, and then the decoder reads each field back. -/
theorem decodeInvertsEncode : Obligations.DecodeInvertsEncode := fun i hi =>
  decode_encode (i.wellFormed_iff.1 hi)

/-- Settles O2: a word that decodes is the word of its command, whose PREC is a 6-bit field. -/
theorem encodeInvertsDecode : Obligations.EncodeInvertsDecode := by
  intro w i h
  obtain ⟨hp, rfl⟩ := (decode_eq_ok_iff w i).1 h
  exact ⟨i.wellFormed_iff.2 hp, rfl⟩

/-- Settles O7: a pseudo-instruction and its expansion name the same command, and every mnemonic names a command with
the precision of its line, which fits PREC. -/
theorem pseudoInstructionsExpand : Obligations.PseudoInstructionsExpand := by
  unfold Obligations.PseudoInstructionsExpand
  intro table
  have htable : ∀ row ∈ table, ∃ q, SpellsChild row.1 row.2.1 q ∧ row.2.2 = q.code.setWidth 32 := by
    simp only [table, List.forall_mem_cons, List.not_mem_nil, false_imp_iff, implies_true, and_true]
    exact ⟨⟨_, spellsChild_leftBottom, rfl⟩, ⟨_, spellsChild_leftTop, rfl⟩, ⟨_, spellsChild_rightBottom, rfl⟩,
      ⟨_, spellsChild_rightTop, rfl⟩⟩
  refine ⟨fun row hrow line line' ws hline hline' => ?pseudo, fun line text ws w a b hline ht hw hab => ?raw,
    fun line c h hhead => ?legal⟩
  case pseudo =>
    obtain ⟨q, hspells, hq⟩ := htable row hrow
    refine ⟨hspells.assemble_eq hline hline', fun precText codeText p c hws hprec hp hcode => ?_⟩
    rw [hspells.assemble_arguments hline hws hprec hp hcode, encode_child, hq]
  case raw => rw [assemble_of_raw hline, rawCommand_of_word ht hw hab]
  case legal =>
    cases hwords : lineWords line.toList with
    | nil => simp [assemble, hwords] at h
    | cons head ws =>
      rw [hwords, List.head?_cons, ne_eq, Option.some.injEq] at hhead
      exact decode_of_mnemonicCommand (assemble_of_mnemonic hwords hhead ▸ h)

/-- Settles O5: each word is that of NEIGHBOR or CHILD with the code in its field. -/
theorem directionAndQuadrantCodes : Obligations.DirectionAndQuadrantCodes := by
  intro p hp
  have hneighbor := decode_neighborWord hp
  have hchild := decode_childWord hp
  exact ⟨hneighbor .north, hneighbor .east, hneighbor .south, hneighbor .west, hneighbor .northEast,
    hneighbor .southEast, hneighbor .southWest, hneighbor .northWest, hchild .leftBottom, hchild .leftTop,
    hchild .rightBottom, hchild .rightTop⟩

end Sys2Proof.Proofs
end

section
/-! Rules for the invariant of the registers: the response that a completing edge writes (spec/10_state.md R22, R23,
R29), the reset values, and the edges that write no response. -/

namespace Sys2Proof.Machine

/-- PREC_OUT is 0 or a precision that was legal (10_state.md R22), so 33 to 63 are never written (R29). -/
theorem commandResponse_precOut_le (a b : Word64) (i : Instr) : (commandResponse a b i).precOut.toNat ≤ 32 := by
  have hzero {v : BitVec 6} (h : v = 0) : v.toNat ≤ 32 := by simp [h]
  by_cases hop : i.opcode ≤ 4
  · exact hzero (commandResponse_precOut_eq_zero a b hop)
  · by_cases hok : (commandResponse a b i).status = 1
    · exact (commandResponse_legalPrecIfOk a b (by omega) hok).2
    · exact hzero ((commandResponse_isResultOrError a b i).precOut_eq_zero hok)

theorem responseOf_precOut_le {c : Word32} {a b : Word64} {ρ : Response} (hρ : responseOf c a b = some ρ) :
    ρ.precOut.toNat ≤ 32 := by
  obtain ⟨e, -, h⟩ | ⟨i, -, h⟩ := responseOf_cases c a b <;> obtain rfl := Option.some.inj (hρ.symm.trans h)
  · simp
  · exact commandResponse_precOut_le a b i

/-! ## States that meet the invariant -/

/-- A written response makes the invariant true, whatever the state before it. -/
theorem inv_finish_writeResponse (s : State) {ρ : Response} (hshape : ρ.IsResultOrError)
    (hprec : ρ.precOut.toNat ≤ 32) : (s.writeResponse ρ).finish.Inv where
  status_written := by
    obtain h | ⟨h | h | h | h, -, -⟩ := hshape.status_and_zeroes <;> simp [h]
  prec_written := hprec
  results_only_when_ok := by
    intro hne
    obtain h | ⟨-, hzeroes⟩ := hshape.status_and_zeroes
    · exact absurd h hne
    · exact hzeroes
  valid_shows_response := by
    obtain h | ⟨h | h | h | h, -, -⟩ := hshape.status_and_zeroes <;> simp [h]
  busy_counts := by simp
  count_bounded := Nat.succ_pos _

theorem completionEdge_inv (s : State) : ∃ t, completionEdge s = .next t ∧ t.Inv := by
  obtain ⟨ρ, hρ, hshape, h⟩ := completionEdge_eq_next s
  exact ⟨_, h, inv_finish_writeResponse s hshape (responseOf_precOut_le hρ)⟩

theorem State.AtResetValues.inv {s : State} (h : s.AtResetValues) : s.Inv := by
  obtain ⟨hstatus, hprec, hr, hvalid, hbusy, hcnt⟩ := h
  exact
    { status_written := by simp [hstatus]
      prec_written := by simp [hprec]
      results_only_when_ok := fun _ => ⟨hprec, hr⟩
      valid_shows_response := by simp [hvalid]
      busy_counts := by simp [hbusy, hcnt]
      count_bounded := hcnt ▸ Nat.succ_pos _ }

/-- An edge that writes no response keeps the clauses about it, clears RSP_VALID and answers for the countdown. -/
theorem State.Inv.of_response_eq {s t : State} (h : s.Inv) (hresponse : t.response = s.response)
    (hvalid : t.rspValid = false) (hbusy : t.busy = true ↔ 0 < t.cnt) (hcnt : t.cnt < Config.latency) : t.Inv := by
  obtain ⟨hstatus, hprec, hr⟩ := Response.mk.inj hresponse
  exact
    { status_written := hstatus ▸ h.status_written
      prec_written := hprec ▸ h.prec_written
      results_only_when_ok := by
        rw [hstatus, hprec, hr]
        exact h.results_only_when_ok
      valid_shows_response := by simp [hvalid]
      busy_counts := hbusy
      count_bounded := hcnt }

end Sys2Proof.Machine
end

section
/-! The statements about the invariant of the registers: it holds after reset and every step keeps it. -/

namespace Sys2Proof.Proofs

open Sys2Proof.Machine

/-- Settles O26: the reset values meet every clause. -/
theorem resetMeetsInvariant : Obligations.ResetMeetsInvariant := reset_atResetValues.inv

/-- Settles O27: a reset edge gives the reset values from any state. -/
theorem resetEdgeEstablishesInvariant : Obligations.ResetEdgeEstablishesInvariant := fun s hr =>
  ⟨_, edge_of_reset Config.latency hr, (resetEdge_atResetValues s.advance).inv⟩

/-- Settles O28, by the five kinds of rising edge: reset and completion make the invariant true from any state, and the
other edges leave the response and move CNT between 0 and LATENCY - 1. -/
theorem stepKeepsInvariant : Obligations.StepKeepsInvariant := by
  intro s hinv
  rw [step, edge]
  obtain ⟨-, h⟩ | ⟨-, -, -, h⟩ | ⟨-, hb, hc, h⟩ | ⟨-, -, -, ⟨-, h⟩ | ⟨hl, h⟩⟩ | ⟨-, -, -, h⟩ :=
    edgeWith_cases Config.latency s.sample s.advance <;> rw [h]
  · exact ⟨_, rfl, (resetEdge_atResetValues _).inv⟩
  · exact completionEdge_inv _
  · have hcnt : s.cnt < Config.latency := hinv.count_bounded
    simp only [State.advance_cnt] at hc
    refine ⟨_, rfl, hinv.of_response_eq rfl rfl (iff_of_true hb ?_) ?_⟩
    · exact Nat.sub_pos_of_lt hc
    · exact (Nat.sub_le _ _).trans_lt hcnt
  · exact completionEdge_inv _
  · exact ⟨_, rfl, hinv.of_response_eq rfl rfl (iff_of_true rfl (Nat.sub_pos_of_lt hl))
      (Nat.sub_lt (by omega) one_pos)⟩
  · exact ⟨_, rfl, hinv.of_response_eq rfl rfl hinv.busy_counts hinv.count_bounded⟩

end Sys2Proof.Proofs
end

section
/-! Rules for the edge protocol: the samples that edges spend, the machine's run as a run of edges, and two idle blocks
that differ in their capture registers alone (spec/10_state.md R27). -/

namespace Sys2Proof.Machine

/-! ## The samples -/

theorem completionEdge_inputs {s t : State} (h : completionEdge s = .next t) : t.inputs = s.inputs := by
  obtain ⟨ρ, -, -, h'⟩ := completionEdge_eq_next s
  obtain rfl := Host.Outcome.next.inj (h'.symm.trans h)
  rfl

/-- What an edge does beside sampling does not touch the list of inputs. -/
theorem edgeWith_inputs {latency : Nat} {x : PortIn} {s t : State} (h : edgeWith latency x s = .next t) :
    t.inputs = s.inputs := by
  obtain ⟨-, h'⟩ | ⟨-, -, -, h'⟩ | ⟨-, -, -, h'⟩ | ⟨-, -, -, ⟨-, h'⟩ | ⟨-, h'⟩⟩ | ⟨-, -, -, h'⟩ :=
    edgeWith_cases latency x s <;> rw [h'] at h
  · cases h
    rfl
  · exact completionEdge_inputs h
  · cases h
    rfl
  · simpa using completionEdge_inputs h
  · cases h
    rfl
  · cases h
    rfl

/-- A run answers, and spends one sample an edge. -/
theorem edges_eq_next (latency n : Nat) (s : State) :
    ∃ t, edges latency n s = .next t ∧ t.inputs = s.inputs.drop n := by
  induction n generalizing s with
  | zero => exact ⟨s, rfl, rfl⟩
  | succ n ih =>
    obtain ⟨u, hu⟩ := edge_eq_next latency s
    obtain ⟨t, ht, hinputs⟩ := ih u
    have hspent : u.inputs = s.inputs.tail := edgeWith_inputs hu
    exact ⟨t, (edges_succ_of_edge hu).trans ht, by rw [hinputs, hspent, List.drop_tail]⟩

/-! ## The machine -/

theorem core_run_succ_of_edge {n : Nat} {s t : State} (h : edge Config.latency s = .next t) :
    Host.Core.run core (n + 1) s = Host.Core.run core n t := by
  have hstep : core.step s = .next t := h
  simp only [Host.Core.run, hstep]

/-- The host's core takes one edge at LATENCY a step. -/
theorem core_run_eq_edges (n : Nat) (s : State) : Host.Core.run core n s = edges Config.latency n s := by
  induction n generalizing s with
  | zero => rfl
  | succ n ih =>
    obtain ⟨t, ht⟩ := edge_eq_next Config.latency s
    rw [core_run_succ_of_edge ht, edges_succ_of_edge ht, ih]

/-! ## The capture registers of an idle block -/

/-- The state with these values in CAP_CMD, CAP_A and CAP_B. -/
def State.withCaptures (s : State) (c : Word32) (a b : Word64) : State := { s with capCmd := c, capA := a, capB := b }

theorem withCaptures_capture (s : State) (c : Word32) (a b : Word64) (x : PortIn) :
    (s.withCaptures c a b).capture x = s.capture x := rfl

theorem withCaptures_resetEdge (s : State) (c : Word32) (a b : Word64) :
    (s.withCaptures c a b).resetEdge = s.resetEdge := rfl

theorem withCaptures_hold (s : State) (c : Word32) (a b : Word64) :
    (s.withCaptures c a b).hold = s.hold.withCaptures c a b := rfl

/-- An edge of an idle block overwrites the capture registers, by a reset or an acceptance, or it holds, and then the
block stays idle (10_state.md R27, R30). -/
theorem edgeWith_withCaptures (latency : Nat) (x : PortIn) {s : State} (c : Word32) (a b : Word64)
    (hb : s.busy = false) :
    edgeWith latency x (s.withCaptures c a b) = edgeWith latency x s ∨
      (edgeWith latency x s = .next s.hold ∧
        edgeWith latency x (s.withCaptures c a b) = .next (s.hold.withCaptures c a b)) := by
  have hb' : (s.withCaptures c a b).busy = false := hb
  cases hr : x.rst with
  | true => exact .inl (by simp [edgeWith, hr, withCaptures_resetEdge])
  | false =>
    cases hv : x.cmdValid with
    | true => exact .inl (by simp [edgeWith, accepts, hr, hb, hb', hv, withCaptures_capture])
    | false => exact .inr (by simp [edgeWith, accepts, hr, hb, hb', hv, withCaptures_hold])

/-- No run from an idle block shows its capture registers at the output ports. -/
theorem edges_withCaptures_outputs (latency n : Nat) {s : State} (c : Word32) (a b : Word64) (hb : s.busy = false) :
    ∃ t u, edges latency n s = .next t ∧ edges latency n (s.withCaptures c a b) = .next u ∧
      t.outputs = u.outputs := by
  induction n generalizing s with
  | zero => exact ⟨s, s.withCaptures c a b, rfl, rfl, rfl⟩
  | succ n ih =>
    obtain hsame | ⟨hs, hs'⟩ := edgeWith_withCaptures latency s.sample (s := s.advance) c a b hb
    · obtain ⟨t, ht, -⟩ := edges_eq_next latency (n + 1) s
      obtain ⟨u, hu⟩ := edge_eq_next latency s
      have hu' : edge latency (s.withCaptures c a b) = .next u := hsame.trans hu
      exact ⟨t, t, ht, by rw [edges_succ_of_edge hu', ← edges_succ_of_edge hu, ht], rfl⟩
    · have hedge : edge latency s = .next s.advance.hold := hs
      have hedge' : edge latency (s.withCaptures c a b) = .next (s.advance.hold.withCaptures c a b) := hs'
      rw [edges_succ_of_edge hedge, edges_succ_of_edge hedge']
      exact ih hb

end Sys2Proof.Machine
end

section
/-! The statements about steps, runs and the response: the model's list of samples, LATENCY (R7), the capture registers
(R27), what writes the response (R24, R122) and what a command changes (R24). -/

namespace Sys2Proof.Proofs

open Sys2Proof.Machine

/-- Settles O54, by induction on the number of edges. -/
theorem eachEdgeSpendsOneSample : Obligations.EachEdgeSpendsOneSample := edges_eq_next

/-- Settles O12: a step is an edge at LATENCY, one more than a natural number. -/
theorem machineRunsEdgesAtItsLatency : Obligations.MachineRunsEdgesAtItsLatency :=
  ⟨Nat.succ_pos _, core_run_eq_edges⟩

/-- Settles O11: until an edge overwrites the capture registers in both blocks alike, both hold. -/
theorem idleCapturesNeverShow : Obligations.IdleCapturesNeverShow := fun latency n _ c a b hb =>
  edges_withCaptures_outputs latency n c a b hb

/-- Settles O21, for a state after reset or any other. -/
theorem responseIsAFunctionOfTheCommand : Obligations.ResponseIsAFunctionOfTheCommand :=
  completionEdge_writes_responseOf

/-- Settles O17, one rule of `edge` for each branch; a completing edge leaves in the capture registers the command that
it answers. -/
theorem responseChangesOnlyAtCompletionOrReset : Obligations.ResponseChangesOnlyAtCompletionOrReset := by
  refine ⟨⟨Nat.succ_pos _, fun _ => rfl⟩, fun latency s hl => ?_⟩
  cases hr : s.sample.rst with
  | true => exact ⟨_, edge_of_reset latency hr, by simpa using resetEdge_atResetValues s.advance⟩
  | false =>
    cases hb : s.busy with
    | true =>
      obtain hc | hc := Nat.lt_or_ge 1 s.cnt
      · exact ⟨_, edge_of_count hr hb hc, by simp [Nat.not_le.2 hc]⟩
      · obtain ⟨ρ, hρ, -, h⟩ := completionEdge_eq_next s.advance
        refine ⟨_, (edge_of_last hr hb hc).trans h, ?_⟩
        simpa [hc] using hρ.symm
    | false =>
      cases hv : s.sample.cmdValid with
      | false => exact ⟨_, edge_of_idle latency hr hb hv, by simp⟩
      | true =>
        obtain rfl | hl := hl.eq_or_lt
        · obtain ⟨ρ, hρ, -, h⟩ := completionEdge_eq_next (s.advance.capture s.sample)
          refine ⟨_, (edge_of_accept_last hr hb hv rfl).trans h, ?_⟩
          simpa using hρ.symm
        · exact ⟨_, edge_of_accept hr hb hv hl, by simp [hl.ne']⟩

/-- Settles O18: at CNT = 1 the step is the completing edge of the captured word. -/
theorem stepRunsDecodedCommand : Obligations.StepRunsDecodedCommand := by
  intro s t i hr hb hc hd he
  exact (edge_of_last hr hb hc.le).trans (completionEdge_of_ok s.advance t i hd he)

/-- Settles O19: a command answers by writing its response. -/
theorem commandsChangeOnlyTheResponse : Obligations.CommandsChangeOnlyTheResponse := by
  intro i s
  obtain ⟨ρ, hρ⟩ := exec_eq_answer i s
  exact ⟨s.writeResponse ρ, hρ, sameOutsideResponse_writeResponse s ρ⟩

end Sys2Proof.Proofs
end

section
/-! `f64word` undoes `f64val` (spec/00_scope.md R10): a nonzero finite word is its sign and m units of `2^(k - 52)`,
where k is the exponent that `f64word` finds. -/

namespace Sys2Proof.Machine

/-- A word is the sum of its three fields, each at its place (00_scope.md R11). -/
theorem eq_ofNat_f64_fields (w : Word64) :
    w = BitVec.ofNat 64 ((if f64sign w then 2 ^ 63 else 0) + f64exponent w * 2 ^ 52 + f64fraction w) := by
  apply BitVec.eq_of_toNat_eq
  have hw := w.isLt
  have hsign : f64sign w = decide (w.toNat / 2 ^ 63 % 2 = 1) := Nat.testBit_eq_decide_div_mod_eq
  simp only [hsign, decide_eq_true_eq, f64exponent, f64fraction, BitVec.extractLsb'_toNat,
    Nat.shiftRight_eq_div_pow, BitVec.toNat_ofNat]
  split <;> omega

/-- The exponent and the significand make up the two lower fields together. -/
theorem f64assemble_of_fields {w : Word64} {k : ℤ} {m : Nat}
    (h : (k + 1022).toNat * 2 ^ 52 + m = f64exponent w * 2 ^ 52 + f64fraction w) :
    f64assemble (f64sign w) k m = w := by
  rw [f64assemble, add_assoc, h, ← add_assoc, ← eq_ofNat_f64_fields]

theorem f64fraction_lt (w : Word64) : f64fraction w < 2 ^ 52 := (w.extractLsb' 0 52).isLt

theorem f64exponent_lt (w : Word64) : f64exponent w < 2 ^ 11 := (w.extractLsb' 52 11).isLt

/-- Only one power of two is the greatest below a magnitude. -/
theorem log2Floor_eq {x : ℚ} (hx : x ≠ 0) {k : ℤ} (hlo : (2 : ℚ) ^ k ≤ |x|) (hhi : |x| < (2 : ℚ) ^ (k + 1)) :
    log2Floor x = k := by
  obtain ⟨hlo', hhi'⟩ := log2Floor_spec hx
  have h₁ := (zpow_lt_zpow_iff_right₀ (one_lt_two (α := ℚ))).1 (hlo.trans_lt hhi')
  have h₂ := (zpow_lt_zpow_iff_right₀ (one_lt_two (α := ℚ))).1 (hlo'.trans_lt hhi)
  omega

theorem log2Floor_lt {x : ℚ} (hx : x ≠ 0) {k : ℤ} (hhi : |x| < (2 : ℚ) ^ k) : log2Floor x < k := by
  obtain ⟨hlo, -⟩ := log2Floor_spec hx
  exact (zpow_lt_zpow_iff_right₀ (one_lt_two (α := ℚ))).1 (hlo.trans_lt hhi)

section
variable {x : ℚ} {neg : Bool} {k : ℤ} {m : Nat} (hx : x ≠ 0)
  (hval : x = (if neg then -1 else 1) * (m * (2 : ℚ) ^ (k - 52)))

include hval

theorem abs_eq_of_units : |x| = m * (2 : ℚ) ^ (k - 52) := by
  have hm : (0 : ℚ) ≤ m * (2 : ℚ) ^ (k - 52) := by positivity
  rw [hval, abs_mul, abs_of_nonneg hm]
  cases neg <;> simp

include hx

theorem decide_neg_of_units : decide (x < 0) = neg := by
  have hm : 0 < m * (2 : ℚ) ^ (k - 52) := abs_eq_of_units hval ▸ abs_pos.2 hx
  cases neg with
  | true => simpa [hval] using hm
  | false => simpa [hval] using hm.le

theorem f64word_of_units (hunit : unitExponent x = k) : f64word x = f64assemble neg k m := by
  have habs := abs_eq_of_units hval
  rw [f64word_eq_f64assemble hx (hunit.symm ▸ habs), hunit, decide_neg_of_units hx hval]

/-- The unit of a significand of 53 bits is decided by its leading bit. -/
theorem unitExponent_of_normal (hk : -1022 ≤ k) (hm : 2 ^ 52 ≤ m) (hm' : m < 2 ^ 53) : unitExponent x = k := by
  have hlo : (2 : ℚ) ^ k = 2 ^ 52 * (2 : ℚ) ^ (k - 52) := by
    rw [← zpow_natCast, ← zpow_add₀ two_ne_zero, Nat.cast_ofNat, add_sub_cancel]
  have hhi : (2 : ℚ) ^ (k + 1) = 2 ^ 53 * (2 : ℚ) ^ (k - 52) := by
    rw [zpow_add_one₀ two_ne_zero, hlo]
    ring
  have hlog : log2Floor x = k := by
    apply log2Floor_eq hx <;> rw [abs_eq_of_units hval]
    · rw [hlo]
      exact mul_le_mul_of_nonneg_right (by exact_mod_cast hm) (by positivity)
    · rw [hhi]
      exact mul_lt_mul_of_pos_right (by exact_mod_cast hm') (by positivity)
  rw [unitExponent, hlog, max_eq_left hk]

/-- Below 53 bits in the smallest unit, that unit stays. -/
theorem unitExponent_of_subnormal (hk : k = -1022) (hm : m < 2 ^ 52) : unitExponent x = k := by
  have hlog : log2Floor x < -1022 := by
    apply log2Floor_lt hx
    have hhi : (2 : ℚ) ^ (-1022 : ℤ) = 2 ^ 52 * (2 : ℚ) ^ (k - 52) := by
      rw [hk, ← zpow_natCast, ← zpow_add₀ two_ne_zero]
      rfl
    rw [abs_eq_of_units hval, hhi]
    exact mul_lt_mul_of_pos_right (by exact_mod_cast hm) (by positivity)
  rw [unitExponent, max_eq_right hlog.le, hk]

end

/-- `f64word` writes a nonzero finite value back as its own word. -/
theorem f64word_of_f64val {w : Word64} {v : ℚ} (hw : f64val w = .finite v) (hv : v ≠ 0) : f64word v = w := by
  have hfraction := f64fraction_lt w
  have hexponent := f64exponent_lt w
  by_cases h0 : f64exponent w = 0
  · have hval := F64.finite.inj (hw.symm.trans (f64val_of_subnormal h0))
    have hunits : v = (if f64sign w then -1 else 1) * (f64fraction w * (2 : ℚ) ^ ((-1022 : ℤ) - 52)) := by
      rw [hval, mul_assoc]
      norm_num
    rw [f64word_of_units hv hunits (unitExponent_of_subnormal hv hunits rfl hfraction)]
    exact f64assemble_of_fields (by omega)
  · have hmax : f64exponent w ≠ 0x7FF := fun h => f64val_ne_finite_of_exponent_max h v hw
    have hval := F64.finite.inj (hw.symm.trans (f64val_of_normal h0 hmax))
    have hunits : v = (if f64sign w then -1 else 1) *
        ((2 ^ 52 + f64fraction w : Nat) * (2 : ℚ) ^ (((f64exponent w : ℤ) - 1023) - 52)) := by
      rw [hval, mul_assoc, sub_sub]
      push_cast
      norm_num
    rw [f64word_of_units hv hunits (unitExponent_of_normal hv hunits (by omega) (by omega) (by omega))]
    exact f64assemble_of_fields (by omega)

end Sys2Proof.Machine
end

section
/-! The statements about exact values: words of values (R10), cell bounds (R84) and the agreement of SCALE with ENCODE
(R77). -/

namespace Sys2Proof.Proofs

open Sys2Proof.Machine

/-- Settles O37, by the exponent field: a normal value has 53 bits in its unit, a subnormal fewer in the smallest. -/
theorem wordOfAValueIsExact : Obligations.WordOfAValueIsExact := ⟨f64word_zero, fun _ _ => f64word_of_f64val⟩

/-- Settles O38: the bounds of both axes are dyadic, and a word with an exact value is not -0.0. -/
theorem cellBoundsAreExact : Obligations.CellBoundsAreExact := by
  intro p i hp hi
  have hlat := f64val_f64word_latBound hp hi
  have hlng := f64val_f64word_lngBound hp hi
  rw [latBound_eq] at hlat
  rw [lngBound_eq] at hlng
  exact ⟨hlat, hlng, f64word_ne_negZero hlat, f64word_ne_negZero hlng⟩

/-- Settles O42: the indices that SCALE shows are those of ENCODE's interleave. -/
theorem scaleAgreesWithEncode : Obligations.ScaleAgreesWithEncode := by
  intro s p lat lng hlat hlng hp hp'
  obtain ⟨t, ht, ⟨htstatus, -, htr⟩, -⟩ := exec_of_coordinates (i := .scale p) rfl hlat hlng hp hp' rfl
  obtain ⟨u, hu, hcode, -⟩ := exec_of_coordinates (i := .encode p) rfl hlat hlng hp hp' rfl
  obtain ⟨v, hv, ⟨-, -, hvr⟩, -⟩ :=
    exec_of_commandResponse_eq_ok (i := .deinterleave) (s := { u with capA := u.r[0] }) (by decide) rfl
  obtain ⟨hustatus, -, -⟩ := id hcode
  refine ⟨t, u, v, ht, hu, hv, htstatus, hustatus, Vector.ext fun k hk => ?_⟩
  rw [hcode.r0_eq, lngIdx_interleave, latIdx_interleave] at hvr
  exact (hvr ⟨k, hk⟩).trans (htr ⟨k, hk⟩).symm

end Sys2Proof.Proofs
end
